-- ==== Sys2Proof/Word.lean ====
section
/-! DEFINITION. The word types of the ET-AES core: a byte is 8 bits, a word 32 bits, and the STATUS fields
ERRCODE, NK and NR are 4 bits wide (00_scope.md R8, 10_state.md R30). -/

namespace Sys2Proof

/-- "an 8-bit unsigned value; the atomic unit of plaintext, ciphertext, and key material" (00_scope.md, glossary). -/
abbrev Byte := BitVec 8

/-- "a 32-bit unsigned value treated as 4 packed bytes" (00_scope.md, glossary). -/
abbrev Word := BitVec 32

/-- A 4-bit STATUS field (10_state.md R30). -/
abbrev Nibble := BitVec 4

end Sys2Proof
end

