-- ==== Sys2Proof/Syntax.lean ====
section
/-! DEFINITION. The commands of the ET-AES core, one constructor for each row of spec/opcode_table.json
(30_encoding.md R74). Table indices and multiplier constants are field elements, hence bytes; key words, rounds
and word or round indices are counts, hence numbers, which WellFormed bounds to the operand byte they travel in. -/

namespace Sys2Proof

/-- A command of the core (30_encoding.md R71, R74). -/
inductive Instr where
  /-- SBOX x: read the S-box (R100). -/
  | sbox (x : Byte)
  /-- INVSBOX y: read the inverse S-box (R101). -/
  | invsbox (y : Byte)
  /-- GINV x: read the multiplicative-inverse table (R102). -/
  | ginv (x : Byte)
  /-- MULC x, m: read the multiply-by-m table (R103). -/
  | mulc (x m : Byte)
  /-- EXPAND nk, nr: build the Round Key Schedule from KEY (R125). -/
  | expand (nk nr : Nat)
  /-- RKREAD i: read one schedule word (R126). -/
  | rkread (i : Nat)
  /-- SUBBYTES (R145). -/
  | subbytes
  /-- SHIFTROWS (R146). -/
  | shiftrows
  /-- MIXCOLUMNS (R147). -/
  | mixcolumns
  /-- ADDRK r: AddRoundKey with Round Key r (R148). -/
  | addrk (r : Nat)
  /-- INVSUBBYTES (R164). -/
  | invsubbytes
  /-- INVSHIFTROWS (R165). -/
  | invshiftrows
  /-- INVMIXCOLUMNS (R166). -/
  | invmixcolumns
  /-- ENCRYPT: encrypt the block in STATE (R149). -/
  | encrypt
  /-- DECRYPT: decrypt the block in STATE (R167). -/
  | decrypt
deriving DecidableEq, Repr

end Sys2Proof
end

