-- ==== Sys2Proof/WellFormed.lean ====
section
/-! DEFINITION. Well-formed commands: every count fits the operand byte A or B it is encoded in (30_encoding.md
R70, R71: "Operands are the fields A and B taken as unsigned 8-bit values"). Legality beyond that (a supported
key pair, a table constant, an index inside the schedule) is no matter of form: such a word is a command, and its
rule raises its error (R76). -/

namespace Sys2Proof

/-- A count fits an operand byte (30_encoding.md R71). -/
def fitsByte (n : Nat) : Bool := decide (n < 256)

/-- The command can be written as a command word (30_encoding.md R70 to R72). -/
def Instr.wellFormed : Instr → Bool
  | .sbox _ => true
  | .invsbox _ => true
  | .ginv _ => true
  | .mulc _ _ => true
  | .expand nk nr => fitsByte nk && fitsByte nr
  | .rkread i => fitsByte i
  | .subbytes => true
  | .shiftrows => true
  | .mixcolumns => true
  | .addrk r => fitsByte r
  | .invsubbytes => true
  | .invshiftrows => true
  | .invmixcolumns => true
  | .encrypt => true
  | .decrypt => true

end Sys2Proof
end

