-- ==== Sys2Proof/Decode.lean ====
section
/-! DEFINITION. Decoding and encoding of command words (30_encoding.md R70 to R77). A command word is one 32-bit
value; the core stores no command stream (R63), so a word is what one CMD write carries and byte order in memory
plays no part. Decoding is total: every word is a command or is rejected with error 1 or 2. -/

namespace Sys2Proof

/-- Why a command fails (60_exceptions.md R182). The first two are found by decoding (R73), the others by the
command's own rule. -/
inductive CmdError where
  /-- E_ILLEGAL_OPCODE: OPC is not in the opcode map (R184). -/
  | illegalOpcode
  /-- E_RESERVED_FIELD: a reserved field is not zero (R185). -/
  | reservedField
  /-- E_INVALID_PARAM: (nk, nr) is no supported pair (R183). -/
  | invalidParam
  /-- E_BAD_CONSTANT: the multiplier has no table (R186). -/
  | badConstant
  /-- E_NO_SCHEDULE: KSV = 0 (R187). -/
  | noSchedule
  /-- E_RANGE: an index beyond the schedule (R188). -/
  | range
deriving DecidableEq, Repr

/-- The operand formats (30_encoding.md R71). -/
inductive Format where
  /-- N: no operand. -/
  | n
  /-- X: a byte in A. -/
  | x
  /-- XM: a byte in A, a constant in B. -/
  | xm
  /-- KP: key words in A, rounds in B. -/
  | kp
  /-- I: an index in A. -/
  | i
deriving DecidableEq, Repr

/-- The rows of the opcode map (30_encoding.md R74). -/
inductive Mnemonic where
  | sbox | invsbox | ginv | mulc | expand | rkread | subbytes | shiftrows | mixcolumns | addrk
  | invsubbytes | invshiftrows | invmixcolumns | encrypt | decrypt
deriving DecidableEq, Repr

/-- The opcode map, in the table's order (30_encoding.md R74); every other OPC is unassigned (R75). -/
def opcodeMap : List (Byte × Mnemonic) :=
  [(0x01, .sbox), (0x02, .invsbox), (0x03, .ginv), (0x04, .mulc),
   (0x10, .expand), (0x11, .rkread),
   (0x20, .subbytes), (0x21, .shiftrows), (0x22, .mixcolumns), (0x23, .addrk),
   (0x28, .invsubbytes), (0x29, .invshiftrows), (0x2A, .invmixcolumns),
   (0x30, .encrypt), (0x31, .decrypt)]

/-- The row an OPC byte selects, if it is assigned (R74, R75). -/
def mnemonicAt (opc : Byte) : Option Mnemonic := opcodeMap.lookup opc

/-- The operand format of a row (R71, R74). -/
def formatOf : Mnemonic → Format
  | .sbox | .invsbox | .ginv => .x
  | .mulc => .xm
  | .expand => .kp
  | .rkread | .addrk => .i
  | .subbytes | .shiftrows | .mixcolumns | .invsubbytes | .invshiftrows | .invmixcolumns
  | .encrypt | .decrypt => .n

/-- OPC, bits 7:0 of a command word (R70). -/
def fieldOpc (v : Word) : Byte := v.extractLsb' 0 8

/-- A, bits 15:8 (R70). -/
def fieldA (v : Word) : Byte := v.extractLsb' 8 8

/-- B, bits 23:16 (R70). -/
def fieldB (v : Word) : Byte := v.extractLsb' 16 8

/-- Z, bits 31:24 (R70). -/
def fieldZ (v : Word) : Byte := v.extractLsb' 24 8

/-- The A byte is reserved in this format (R76). -/
def reservesA : Format → Bool
  | .n => true
  | .x | .xm | .kp | .i => false

/-- The B byte is reserved in this format (R76). -/
def reservesB : Format → Bool
  | .n | .x | .i => true
  | .xm | .kp => false

/-- A reserved field of the word is not zero (R73, R76). -/
def reservedNonzero (f : Format) (v : Word) : Bool :=
  fieldZ v != 0 || (fieldA v != 0 && reservesA f) || (fieldB v != 0 && reservesB f)

/-- The command of a row with the operand bytes A and B (R71). -/
def buildCommand (m : Mnemonic) (a b : Byte) : Instr :=
  match m with
  | .sbox => .sbox a
  | .invsbox => .invsbox a
  | .ginv => .ginv a
  | .mulc => .mulc a b
  | .expand => .expand a.toNat b.toNat
  | .rkread => .rkread a.toNat
  | .subbytes => .subbytes
  | .shiftrows => .shiftrows
  | .mixcolumns => .mixcolumns
  | .addrk => .addrk a.toNat
  | .invsubbytes => .invsubbytes
  | .invshiftrows => .invshiftrows
  | .invmixcolumns => .invmixcolumns
  | .encrypt => .encrypt
  | .decrypt => .decrypt

/-- Decode a command word, with the checks in the order of 30_encoding.md R73: the opcode, then the reserved
fields. -/
def decode (v : Word) : Except CmdError Instr :=
  match mnemonicAt (fieldOpc v) with
  | none => .error .illegalOpcode
  | some m =>
    if reservedNonzero (formatOf m) v then .error .reservedField
    else .ok (buildCommand m (fieldA v) (fieldB v))

/-! ### The encoder (30_encoding.md R72) -/

/-- `word = (0 << 24) | (B << 16) | (A << 8) | OPC` (R72). -/
def commandWord (opc a b : Byte) : Word := (0 : Byte) ++ b ++ a ++ opc

/-- The word of a command: its opcode and operand bytes as R71 and R74 place them. -/
def encode : Instr → Word
  | .sbox x => commandWord 0x01 x 0
  | .invsbox y => commandWord 0x02 y 0
  | .ginv x => commandWord 0x03 x 0
  | .mulc x m => commandWord 0x04 x m
  | .expand nk nr => commandWord 0x10 (BitVec.ofNat 8 nk) (BitVec.ofNat 8 nr)
  | .rkread i => commandWord 0x11 (BitVec.ofNat 8 i) 0
  | .subbytes => commandWord 0x20 0 0
  | .shiftrows => commandWord 0x21 0 0
  | .mixcolumns => commandWord 0x22 0 0
  | .addrk r => commandWord 0x23 (BitVec.ofNat 8 r) 0
  | .invsubbytes => commandWord 0x28 0 0
  | .invshiftrows => commandWord 0x29 0 0
  | .invmixcolumns => commandWord 0x2A 0 0
  | .encrypt => commandWord 0x30 0 0
  | .decrypt => commandWord 0x31 0 0

/-- The "mask" column of spec/opcode_table.json: the bits of the word that the row fixes. -/
def tableMask : Instr → Word
  | .sbox _ | .invsbox _ | .ginv _ | .rkread _ | .addrk _ => 0xFFFF00FF
  | .mulc _ _ | .expand _ _ => 0xFF0000FF
  | .subbytes | .shiftrows | .mixcolumns | .invsubbytes | .invshiftrows | .invmixcolumns
  | .encrypt | .decrypt => 0xFFFFFFFF

/-- The "match" column of spec/opcode_table.json: the value of the fixed bits. -/
def tableMatch : Instr → Word
  | .sbox _ => 0x00000001
  | .invsbox _ => 0x00000002
  | .ginv _ => 0x00000003
  | .mulc _ _ => 0x00000004
  | .expand _ _ => 0x00000010
  | .rkread _ => 0x00000011
  | .subbytes => 0x00000020
  | .shiftrows => 0x00000021
  | .mixcolumns => 0x00000022
  | .addrk _ => 0x00000023
  | .invsubbytes => 0x00000028
  | .invshiftrows => 0x00000029
  | .invmixcolumns => 0x0000002A
  | .encrypt => 0x00000030
  | .decrypt => 0x00000031

/-- The 32-bit command word whose bits below `nbits` are those of `w` and whose other bits are 0, numbered as
spec/opcode_table.json numbers them. -/
def tableWord (nbits w : Nat) : Word := BitVec.ofNat 32 (w % 2 ^ nbits)

/-- What the decoder reads from an opcode-table word; none where it rejects it. -/
def decodeTableWord (nbits w : Nat) : Option Instr := (decode (tableWord nbits w)).toOption

end Sys2Proof
end

