-- ==== Sys2Proof/Config.lean ====
section
/-! DEFINITION. What the spec leaves open: free values and open parameters. Each is an opaque constant without a
body, so nothing can be proved of its values and every statement holds whatever they are. -/

namespace Sys2Proof

/-- The n-th word drawn freely "under no law": the contents of STATE, KEY and RK after a reset
(70_reset_and_hazards.md R202) and the value a host read of STATE or RESULT returns while BUSY = 1
(20_memory.md R59). State.draws counts the draws. DESIGN CHOICE: a draw depends on its number
alone; log entries 1 and 2. -/
opaque Config.freeWord : Nat → Word

/-- `LAT` of a command, drawn freely: finite, with no bound (70_reset_and_hazards.md R213). It is used when
State.lat names no latency for the command. DESIGN CHOICE: it depends on no key and no data (R199), log entry 3. -/
opaque Config.latency : Nat → Nat

/-- `CONST_TIME`: whether the time of a command depends on data. OPEN, "read by no rule" (60_exceptions.md R199),
and read by no definition of this model: log entry 5. -/
opaque Config.constTime : Bool

end Sys2Proof
end

