-- ==== Sys2Proof/Machine/State.lean ====
section
/-! DEFINITION. The state of the ET-AES core and of its host, as plain data (10_state.md, 70_reset_and_hazards.md
R201). BUSY and irq are no fields: BUSY is "Pending is not none" (R31), irq is CTRL.IE and DONE (R38). The table
ROMs are constants (R39) and stand in Machine/Tables.lean. -/

namespace Sys2Proof.Machine

/-- The register STATE as its four words, one column each: word c is STATEc (10_state.md R22, R23). -/
structure Block where
  w0 : Word
  w1 : Word
  w2 : Word
  w3 : Word
deriving DecidableEq, Repr

/-- What the world outside does next. -/
inductive HostAct where
  /-- MemRead(off, 4) (20_memory.md R58). -/
  | read (off : Byte)
  /-- MemWrite(off, 4, v) (20_memory.md R58). -/
  | write (off : Byte) (v : Word)
  /-- WAIT: read STATUS until BUSY of the value read is 0 (30_encoding.md R79). -/
  | wait
  /-- Make no access until the irq output is 1 (20_memory.md R62, 70_reset_and_hazards.md R207). -/
  | waitIrq
  /-- Assert rst_n (70_reset_and_hazards.md R200). -/
  | reset
deriving DecidableEq, Repr

/-- The machine's state. The fields down to rk are the spec's; the last five are the model's own (log entries 2,
3 and 4). -/
structure State where
  /-- CMDREG, the last accepted command word (R29). -/
  cmdreg : Word
  /-- Pending, the accepted command that has not completed (R36). -/
  pending : Option Word
  /-- STATUS.DONE (R32). -/
  done : Bool
  /-- STATUS.ERR, sticky (R33). -/
  err : Bool
  /-- STATUS.OVR, sticky (R34). -/
  ovr : Bool
  /-- STATUS.KSV, key schedule valid (R27). -/
  ksv : Bool
  /-- STATUS.ERRCODE (R35). -/
  errcode : Nibble
  /-- STATUS.NK, key words of the schedule (R26). -/
  nk : Nibble
  /-- STATUS.NR, rounds of the schedule (R26). -/
  nr : Nibble
  /-- CTRL.IE, interrupt enable (R37). -/
  ie : Bool
  /-- RESULT (R28). -/
  result : Word
  /-- STATE0..STATE3 (R22). -/
  state : Block
  /-- KEY0..KEY7 (R24). -/
  key : Vector Word 8
  /-- RK[0..59], the round-key RAM (R25). -/
  rk : Vector Word 60
  /-- What the host has still to do, in order (R61). -/
  script : List HostAct
  /-- The values host reads have returned, newest first (R50, rdata). -/
  got : List Word
  /-- LAT of the commands to come, as far as it is given (R213); the rest is drawn from Config.latency. -/
  lat : List Nat
  /-- Steps that still pass before the pending command completes (R213). -/
  delay : Nat
  /-- How many free values have been drawn. -/
  draws : Nat
deriving DecidableEq, Repr

/-- Why the machine stops with a fault. The spec knows none (93_implementation_defined.md: "every command
completes"). -/
inductive Fault where
  /-- NR and KSV claim a schedule longer than the 60 words of the round-key RAM (NR = 15): a word outside the RAM
  would be read. Raised by RKREAD, ADDRK, ENCRYPT and DECRYPT, only in states no run reaches. Safe: log entry 7. -/
  | scheduleOutsideRam
deriving DecidableEq, Repr

/-- Why the model gives a step no meaning. -/
inductive Refusal where
  /-- A command whose meaning is not written (none is left). Raised by exec alone. Safe. -/
  | notModelled (mnemonic : String)
  /-- A host access whose offset is not a multiple of 4: "the model refuses it (it gives it no meaning)"
  (20_memory.md R55). Raised by host reads and writes. Safe. -/
  | misalignedAccess
deriving DecidableEq, Repr

/-- The core right after a reset that draws the free words n, n+1, … for STATE, KEY and RK
(70_reset_and_hazards.md R201, R202), with a host that has nothing to do. -/
def State.afterReset (n : Nat) : State where
  cmdreg := 0
  pending := none
  done := false
  err := false
  ovr := false
  ksv := false
  errcode := 0
  nk := 0
  nr := 0
  ie := false
  result := 0
  state := ⟨Config.freeWord n, Config.freeWord (n + 1), Config.freeWord (n + 2), Config.freeWord (n + 3)⟩
  key := Vector.ofFn fun i => Config.freeWord (n + 4 + i)
  rk := Vector.ofFn fun i => Config.freeWord (n + 12 + i)
  script := []
  got := []
  lat := []
  delay := 0
  draws := n + 72

/-- The machine right after its first reset (R201). STATE, KEY and RK hold the free draws 0 to 71 (R202). -/
def State.reset : State := State.afterReset 0

end Sys2Proof.Machine
end

