-- ==== Sys2Proof/Machine/Flags.lean ====
section
/-! DEFINITION. The STATUS flags, the error codes and the irq output (10_state.md R30 to R38, 60_exceptions.md
R182). The core has no condition codes (R41). -/

namespace Sys2Proof.Machine

/-- The code STATUS.ERRCODE records for an error (60_exceptions.md R182). -/
def errorCode : CmdError → Nibble
  | .illegalOpcode => 1
  | .reservedField => 2
  | .invalidParam => 3
  | .badConstant => 4
  | .noSchedule => 5
  | .range => 6

/-- STATUS.BUSY: "1 exactly when Pending ≠ none" (10_state.md R31). -/
def State.busy (s : State) : Bool := s.pending.isSome

/-- The STATUS word (10_state.md R30): NR 23:20, NK 19:16, ERRCODE 11:8, KSV 4, OVR 3, ERR 2, DONE 1, BUSY 0,
reserved bits 0. -/
def State.statusWord (s : State) : Word :=
  (0 : BitVec 8) ++ s.nr ++ s.nk ++ (0 : BitVec 4) ++ s.errcode ++ (0 : BitVec 3) ++
    BitVec.ofBool s.ksv ++ BitVec.ofBool s.ovr ++ BitVec.ofBool s.err ++ BitVec.ofBool s.done ++
    BitVec.ofBool s.busy

/-- A host write of STATUS clears each of DONE, ERR and OVR whose bit is 1 in the written value (10_state.md R30). -/
def State.ackStatus (v : Word) (s : State) : State :=
  { s with done := s.done && !v.getLsbD 1, err := s.err && !v.getLsbD 2, ovr := s.ovr && !v.getLsbD 3 }

/-- The CTRL word: IE in bit 0, the rest reads 0 (10_state.md R37). -/
def State.ctrlWord (s : State) : Word := (BitVec.ofBool s.ie).setWidth 32

/-- The output irq: "the level CTRL.IE ∧ STATUS.DONE at every instant" (10_state.md R38). -/
def State.irq (s : State) : Bool := s.ie && s.done

end Sys2Proof.Machine
end

