-- ==== Sys2Proof/Machine/Operands.lean ====
section
/-! DEFINITION. The implicit operands of the commands: the bytes of a word, the sixteen bytes of the State, round
keys, and which parameters are supported. Byte order is decided here and nowhere else (20_memory.md R52). -/

namespace Sys2Proof.Machine

/-- The byte at byte-position r of a word: bits 31 − 8r : 24 − 8r (10_state.md R23, 20_memory.md R52). -/
def byteAt (r : Fin 4) (w : Word) : Byte := w.extractLsb' (24 - 8 * r.val) 8

/-- b0 ‖ b1 ‖ b2 ‖ b3 (20_memory.md R52). -/
def packWord (b0 b1 b2 b3 : Byte) : Word := b0 ++ b1 ++ b2 ++ b3

/-- The same function on each byte of a word. -/
def mapBytes (f : Byte → Byte) (w : Word) : Word :=
  packWord (f (byteAt 0 w)) (f (byteAt 1 w)) (f (byteAt 2 w)) (f (byteAt 3 w))

/-- STATEc, the word of column c (10_state.md R23). -/
def Block.column (b : Block) : Fin 4 → Word
  | 0 => b.w0
  | 1 => b.w1
  | 2 => b.w2
  | 3 => b.w3

/-- The block with STATEc replaced. -/
def Block.setColumn (b : Block) (c : Fin 4) (v : Word) : Block :=
  match c with
  | 0 => { b with w0 := v }
  | 1 => { b with w1 := v }
  | 2 => { b with w2 := v }
  | 3 => { b with w3 := v }

/-- S[r][c], the state byte at row r, column c (10_state.md R23). -/
def Block.byte (b : Block) (r c : Fin 4) : Byte := byteAt r (b.column c)

/-- The block whose byte at row r, column c is f r c. -/
def Block.ofBytes (f : Fin 4 → Fin 4 → Byte) : Block :=
  ⟨packWord (f 0 0) (f 1 0) (f 2 0) (f 3 0), packWord (f 0 1) (f 1 1) (f 2 1) (f 3 1),
   packWord (f 0 2) (f 1 2) (f 2 2) (f 3 2), packWord (f 0 3) (f 1 3) (f 2 3) (f 3 3)⟩

/-- The same function on each column of a block. -/
def Block.mapColumns (f : Word → Word) (b : Block) : Block := ⟨f b.w0, f b.w1, f b.w2, f b.w3⟩

/-- The supported key parameters (nk, nr): AES-128, AES-192, AES-256 (00_scope.md R4, 60_exceptions.md R183). -/
def supportedKey (nk nr : Nat) : Bool :=
  (nk == 4 && nr == 10) || (nk == 6 && nr == 12) || (nk == 8 && nr == 14)

/-- Words of the schedule the core holds: 4·(NR + 1) (00_scope.md R8). -/
def State.scheduleWords (s : State) : Nat := 4 * (s.nr.toNat + 1)

/-- The schedule lies in the round-key RAM of 60 words (00_scope.md R9). It does in every state a run reaches (log entry 7). -/
def State.scheduleFits (s : State) : Bool := decide (s.scheduleWords ≤ 60)

/-- RK[i] (10_state.md R25). Commands read only words of the schedule, so the 0 for an index outside the RAM is never
read: scheduleFits is checked first. -/
def State.rkWord (s : State) (i : Nat) : Word := s.rk[i]?.getD 0

/-- Round Key j: RK[4j], RK[4j+1], RK[4j+2], RK[4j+3] (10_state.md R25, 42_key_schedule.md R124). -/
def State.roundKey (s : State) (j : Nat) : Block :=
  ⟨s.rkWord (4 * j), s.rkWord (4 * j + 1), s.rkWord (4 * j + 2), s.rkWord (4 * j + 3)⟩

end Sys2Proof.Machine
end

