-- ==== Sys2Proof/Machine/Ops.lean ====
section
/-! DEFINITION. The named operations on the registers: writing results, issuing and completing a command, raising a
command error (this core's exceptions: 60_exceptions.md R180, R181), and the reset event. -/

namespace Sys2Proof.Machine

/-- What a step or a command answers. -/
abbrev Outcome := Host.Outcome State Fault Refusal

/-- RESULT <- v (10_state.md R28). -/
def State.setResult (v : Word) (s : State) : State := { s with result := v }

/-- STATE <- b (10_state.md R22). -/
def State.setState (b : Block) (s : State) : State := { s with state := b }

/-- RK with the words of a new schedule written from index 0 on; words beyond keep their contents
(10_state.md R25). -/
def overwriteRk (ws : List Word) (rk : Vector Word 60) : Vector Word 60 :=
  rk.mapIdx fun i old => ws.getD i old

/-- What a successful EXPAND writes: RK[0 .. 4·(NR+1) − 1], NK, NR and KSV (42_key_schedule.md R125). -/
def State.setSchedule (nk nr : Nat) (ws : List Word) (s : State) : State :=
  { s with rk := overwriteRk ws s.rk, nk := BitVec.ofNat 4 nk, nr := BitVec.ofNat 4 nr, ksv := true }

/-- The completion fields of a command that succeeded (10_state.md R36, R33, R35): ERR stays as it was. -/
def State.completed (s : State) : State :=
  { s with pending := none, done := true, errcode := 0 }

/-- The completion fields of a command that failed (60_exceptions.md R181). -/
def State.failed (e : CmdError) (s : State) : State :=
  { s with pending := none, done := true, err := true, errcode := errorCode e }

/-- A command ends without error, its results written in s (10_state.md R36). -/
def succeed (s : State) : Outcome := .next s.completed

/-- `raise CmdError(code)`: the command ends at once and writes the completion fields only (60_exceptions.md R181).
This is the one exception operation of the core. -/
def raiseError (e : CmdError) (s : State) : Outcome := .next (s.failed e)

/-- The check RKREAD, ADDRK, ENCRYPT and DECRYPT make first: error 5 when KSV = 0 (60_exceptions.md R187). A state
whose schedule would lie outside the RAM faults (log entry 7). -/
def withSchedule (s : State) (body : Outcome) : Outcome :=
  if s.ksv then (if s.scheduleFits then body else .fault .scheduleOutsideRam) else raiseError .noSchedule s

/-- LAT of the next command: the given one, or else a free draw (70_reset_and_hazards.md R213). DESIGN CHOICE, unsafe
for statements that compare two runs: the latency depends on no key and no data, while the spec leaves open whether it
does (60_exceptions.md R199); log entries 3 and 5. -/
def State.nextLatency (s : State) : Nat :=
  match s.lat with
  | d :: _ => d
  | [] => Config.latency s.draws

/-- An accepted CMD write: "CMDREG <- v, Pending <- v, BUSY <- 1, DONE <- 0; no other state changes at issue"
(10_state.md R36). The model's own fields record the command's LAT. -/
def State.issue (v : Word) (s : State) : State :=
  { s with cmdreg := v, pending := some v, done := false,
           delay := s.nextLatency, lat := s.lat.tail, draws := s.draws + 1 }

/-- A host write dropped because BUSY = 1 sets OVR and nothing else (20_memory.md R59, 60_exceptions.md R190). -/
def State.dropWrite (s : State) : State := { s with ovr := true }

/-- CTRL.IE <- wdata[0] (10_state.md R37). -/
def State.setCtrl (v : Word) (s : State) : State := { s with ie := v.getLsbD 0 }

/-- STATEc <- wdata (20_memory.md R58). -/
def State.setStateWord (c : Fin 4) (v : Word) (s : State) : State := { s with state := s.state.setColumn c v }

/-- KEYi <- wdata (20_memory.md R58). -/
def State.setKeyWord (i : Fin 8) (v : Word) (s : State) : State := { s with key := s.key.set i v }

/-- A host read has returned v (20_memory.md R50, rdata). -/
def State.deliver (v : Word) (s : State) : State := { s with got := v :: s.got }

/-- A host read has returned a value "the model draws freely (any 32-bit value, independently for each read)"
(20_memory.md R59). -/
def State.deliverFree (s : State) : State :=
  { s with got := Config.freeWord s.draws :: s.got, draws := s.draws + 1 }

/-- What the host has still to do becomes `rest` (20_memory.md R61). -/
def State.setScript (rest : List HostAct) (s : State) : State := { s with script := rest }

/-- The steps left of the pending command's LAT become `d` (70_reset_and_hazards.md R213). -/
def State.setDelay (d : Nat) (s : State) : State := { s with delay := d }

/-- The reset event: one atomic event "that sets every register to its reset value of rule R201, whatever state the
core was in" (70_reset_and_hazards.md R200), with new draws for STATE, KEY and RK (R202). The host keeps what it
has still to do and what it has read. -/
def State.pinReset (s : State) : State :=
  { State.afterReset s.draws with script := s.script, got := s.got, lat := s.lat }

end Sys2Proof.Machine
end

