-- ==== Sys2Proof/Machine/Bus.lean ====
section
/-! DEFINITION. The host port: which register an offset names (20_memory.md R51), what a read returns and a write
does with BUSY = 0 (R58) and BUSY = 1 (R59), and the host's next move. No read has a side effect on the core (R57). -/

namespace Sys2Proof.Machine

/-- The registers of the host window (20_memory.md R51). -/
inductive HostReg where
  | cmd | status | ctrl | result
  | state (c : Fin 4)
  | key (i : Fin 8)
  | reserved
deriving DecidableEq, Repr

/-- The register at a byte offset; none where the offset is not word aligned (20_memory.md R51, R55, R56). -/
def hostRegAt (off : Byte) : Option HostReg :=
  let n := off.toNat / 4
  if off.toNat % 4 ≠ 0 then none
  else if n = 0 then some .cmd
  else if n = 1 then some .status
  else if n = 2 then some .ctrl
  else if n = 3 then some .result
  else if n < 8 then some (.state (Fin.ofNat 4 (n - 4)))
  else if n < 16 then some (.key (Fin.ofNat 8 (n - 8)))
  else some .reserved

/-- What a read of a register returns when the model does not draw it freely (20_memory.md R58): KEY and reserved
offsets read 0. -/
def readReg (r : HostReg) (s : State) : Word :=
  match r with
  | .cmd => s.cmdreg
  | .status => s.statusWord
  | .ctrl => s.ctrlWord
  | .result => s.result
  | .state c => s.state.column c
  | .key _ => 0
  | .reserved => 0

/-- The registers whose reads return any value while BUSY = 1 (20_memory.md R59). -/
def unstableWhileBusy : HostReg → Bool
  | .state _ | .result => true
  | .cmd | .status | .ctrl | .key _ | .reserved => false

/-- MemRead(off, 4) (20_memory.md R58, R59); a misaligned access is refused (R55). -/
def busRead (off : Byte) (s : State) : Outcome :=
  match hostRegAt off with
  | none => .refused .misalignedAccess
  | some r => .next (if s.busy && unstableWhileBusy r then s.deliverFree else s.deliver (readReg r s))

/-- A write that is dropped while a command is pending (20_memory.md R59). -/
def unlessBusy (write : State → State) (s : State) : State := if s.busy then s.dropWrite else write s

/-- What a write of a register does (20_memory.md R58, R59). -/
def writeReg (r : HostReg) (v : Word) (s : State) : State :=
  match r with
  | .cmd => unlessBusy (State.issue v) s
  | .status => s.ackStatus v
  | .ctrl => s.setCtrl v
  | .result => s
  | .state c => unlessBusy (State.setStateWord c v) s
  | .key i => unlessBusy (State.setKeyWord i v) s
  | .reserved => s

/-- MemWrite(off, 4, v) (20_memory.md R58, R59); a misaligned access is refused (R55). -/
def busWrite (off : Byte) (v : Word) (s : State) : Outcome :=
  match hostRegAt off with
  | none => .refused .misalignedAccess
  | some r => .next (writeReg r v s)

/-- One poll of WAIT: read STATUS; while BUSY of the value read is 1 the host goes on waiting (30_encoding.md R79). -/
def pollStatus (s : State) : State :=
  let read := s.deliver s.statusWord
  if s.statusWord.getLsbD 0 then read.setScript (.wait :: s.script) else read

/-- One look at the irq output: while it is 0 the host goes on waiting (20_memory.md R62). -/
def pollIrq (s : State) : State :=
  if s.irq then s else s.setScript (.waitIrq :: s.script)

/-- The host makes the access `a`, its script being already what follows. -/
def hostAct (a : HostAct) (s : State) : Outcome :=
  match a with
  | .read off => busRead off s
  | .write off v => busWrite off v s
  | .wait => .next (pollStatus s)
  | .waitIrq => .next (pollIrq s)
  | .reset => .next s.pinReset

/-- The host's turn: its next access, in its order (20_memory.md R61); with nothing left to do nothing happens
("it is idle whenever BUSY = 0", 60_exceptions.md R198). -/
def hostTurn (s : State) : Outcome :=
  match s.script with
  | [] => .next s
  | a :: rest => hostAct a (s.setScript rest)

end Sys2Proof.Machine
end

