-- ==== Sys2Proof/Machine/Field.lean ====
section
/-! DEFINITION. GF(2^8) arithmetic as rules R90 to R94 of 41_gf_tables.md state it. The key schedule's round
constant uses xtime (R122); the table ROMs of Machine/Tables.lean hold values of these functions (R95 to R97). -/

namespace Sys2Proof.Machine

/-- Doubling: shift left by one and reduce by 0x11B when the ninth bit is set (41_gf_tables.md R91). -/
def xtime (a : Byte) : Byte :=
  let t : BitVec 9 := a.setWidth 9 <<< 1
  (if t.getLsbD 8 then t ^^^ 0x11B else t).setWidth 8

/-- The loop of gmul over the bit numbers of m, with the partial sum r and the doubled operand p
(41_gf_tables.md R92). -/
def gmulLoop (m : Byte) : List Nat → Byte → Byte → Byte
  | [], r, _ => r
  | i :: is, r, p => gmulLoop m is (if m.getLsbD i then r ^^^ p else r) (xtime p)

/-- Field multiplication by repeated doubling (41_gf_tables.md R92). -/
def gmul (a m : Byte) : Byte := gmulLoop m [0, 1, 2, 3, 4, 5, 6, 7] 0x00 a

/-- The power of a whose exponent has the given bits, highest first, by squaring and multiplying; r is the power
made so far. -/
def gpow (a : Byte) : List Bool → Byte → Byte
  | [], r => r
  | b :: bs, r => gpow a bs (if b then gmul (gmul r r) a else gmul r r)

/-- The multiplicative inverse: "ginv(a) = a^254 for a ≠ 0", and ginv(0x00) = 0x00 (41_gf_tables.md R93). The bits are
those of 254. -/
def fieldInverse (a : Byte) : Byte :=
  if a = 0x00 then 0x00 else gpow a [true, true, true, true, true, true, true, false] 0x01

/-- The affine transformation of the S-box, constant 0x63 (41_gf_tables.md R94). -/
def affine (b : Byte) : Byte :=
  b ^^^ b.rotateLeft 1 ^^^ b.rotateLeft 2 ^^^ b.rotateLeft 3 ^^^ b.rotateLeft 4 ^^^ 0x63

end Sys2Proof.Machine
end

