-- ==== Sys2Proof/Machine/Forward.lean ====
section
/-! DEFINITION. The forward pipeline: SubBytes, ShiftRows, MixColumns, AddRoundKey, the forward cipher, and the
commands SUBBYTES, SHIFTROWS, MIXCOLUMNS, ADDRK and ENCRYPT (43_forward_cipher.md). -/

namespace Sys2Proof.Machine

/-- SubBytes: S'[r][c] = SBOX[S[r][c]] (43_forward_cipher.md R140). -/
def subBytes (b : Block) : Block := Block.ofBytes fun r c => sbox (b.byte r c)

/-- ShiftRows: S'[r][c] = S[r][(c + r) mod 4] (43_forward_cipher.md R141). -/
def shiftRows (b : Block) : Block := Block.ofBytes fun r c => b.byte r (c + r)

/-- MixColumns of one column (43_forward_cipher.md R142). -/
def mixColumn (a0 a1 a2 a3 : Byte) : Word :=
  packWord
    (romRead mul2Rom a0 ^^^ romRead mul3Rom a1 ^^^ a2 ^^^ a3)
    (a0 ^^^ romRead mul2Rom a1 ^^^ romRead mul3Rom a2 ^^^ a3)
    (a0 ^^^ a1 ^^^ romRead mul2Rom a2 ^^^ romRead mul3Rom a3)
    (romRead mul3Rom a0 ^^^ a1 ^^^ a2 ^^^ romRead mul2Rom a3)

/-- MixColumns: each column on its own (43_forward_cipher.md R142). -/
def mixColumns (b : Block) : Block :=
  b.mapColumns fun w => mixColumn (byteAt 0 w) (byteAt 1 w) (byteAt 2 w) (byteAt 3 w)

/-- AddRoundKey: each State word xor the Round Key word (43_forward_cipher.md R143). -/
def addRoundKey (k b : Block) : Block := ⟨b.w0 ^^^ k.w0, b.w1 ^^^ k.w1, b.w2 ^^^ k.w2, b.w3 ^^^ k.w3⟩

/-- A full forward round with its Round Key (43_forward_cipher.md R144). -/
def forwardRound (k b : Block) : Block := addRoundKey k (mixColumns (shiftRows (subBytes b)))

/-- Rounds 1 to n of the forward cipher, in that order (43_forward_cipher.md R144). -/
def forwardRounds (rk : Nat → Block) : Nat → Block → Block
  | 0, b => b
  | n + 1, b => forwardRound (rk (n + 1)) (forwardRounds rk n b)

/-- Cipher(S, NR) with the Round Keys rk 0 .. rk NR; the final round has no MixColumns (43_forward_cipher.md R144). -/
def cipher (rk : Nat → Block) (nr : Nat) (b : Block) : Block :=
  addRoundKey (rk nr) (shiftRows (subBytes (forwardRounds rk (nr - 1) (addRoundKey (rk 0) b))))

/-- SUBBYTES (43_forward_cipher.md R145). -/
def execSubbytes (s : State) : Outcome := succeed (s.setState (subBytes s.state))

/-- SHIFTROWS (43_forward_cipher.md R146). -/
def execShiftrows (s : State) : Outcome := succeed (s.setState (shiftRows s.state))

/-- MIXCOLUMNS (43_forward_cipher.md R147). -/
def execMixcolumns (s : State) : Outcome := succeed (s.setState (mixColumns s.state))

/-- ADDRK r (43_forward_cipher.md R148): error 5 when KSV = 0, then error 6 when r > NR. -/
def execAddrk (r : Nat) (s : State) : Outcome :=
  withSchedule s
    (if r > s.nr.toNat then raiseError .range s
     else succeed (s.setState (addRoundKey (s.roundKey r) s.state)))

/-- ENCRYPT (43_forward_cipher.md R149): error 5 when KSV = 0. -/
def execEncrypt (s : State) : Outcome :=
  withSchedule s (succeed (s.setState (cipher s.roundKey s.nr.toNat s.state)))

end Sys2Proof.Machine
end

