-- ==== Sys2Proof/Machine/Inverse.lean ====
section
/-! DEFINITION. The inverse pipeline: InvSubBytes, InvShiftRows, InvMixColumns, the inverse cipher, and the commands
INVSUBBYTES, INVSHIFTROWS, INVMIXCOLUMNS and DECRYPT (44_inverse_cipher.md). -/

namespace Sys2Proof.Machine

/-- InvSubBytes: S'[r][c] = INVSBOX[S[r][c]] (44_inverse_cipher.md R160). -/
def invSubBytes (b : Block) : Block := Block.ofBytes fun r c => invSbox (b.byte r c)

/-- InvShiftRows: S'[r][c] = S[r][(c − r) mod 4] (44_inverse_cipher.md R161). -/
def invShiftRows (b : Block) : Block := Block.ofBytes fun r c => b.byte r (c - r)

/-- InvMixColumns of one column (44_inverse_cipher.md R162). -/
def invMixColumn (a0 a1 a2 a3 : Byte) : Word :=
  packWord
    (romRead mul14Rom a0 ^^^ romRead mul11Rom a1 ^^^ romRead mul13Rom a2 ^^^ romRead mul9Rom a3)
    (romRead mul9Rom a0 ^^^ romRead mul14Rom a1 ^^^ romRead mul11Rom a2 ^^^ romRead mul13Rom a3)
    (romRead mul13Rom a0 ^^^ romRead mul9Rom a1 ^^^ romRead mul14Rom a2 ^^^ romRead mul11Rom a3)
    (romRead mul11Rom a0 ^^^ romRead mul13Rom a1 ^^^ romRead mul9Rom a2 ^^^ romRead mul14Rom a3)

/-- InvMixColumns: each column on its own (44_inverse_cipher.md R162). -/
def invMixColumns (b : Block) : Block :=
  b.mapColumns fun w => invMixColumn (byteAt 0 w) (byteAt 1 w) (byteAt 2 w) (byteAt 3 w)

/-- A full inverse round with its Round Key, in the source's listed order (44_inverse_cipher.md R163). -/
def inverseRound (k b : Block) : Block := invMixColumns (addRoundKey k (invSubBytes (invShiftRows b)))

/-- Rounds n down to 1 of the inverse cipher, in that order (44_inverse_cipher.md R163). -/
def inverseRounds (rk : Nat → Block) : Nat → Block → Block
  | 0, b => b
  | n + 1, b => inverseRounds rk n (inverseRound (rk (n + 1)) b)

/-- InvCipher(S, NR) with the Round Keys rk NR .. rk 0 (44_inverse_cipher.md R163). -/
def invCipher (rk : Nat → Block) (nr : Nat) (b : Block) : Block :=
  addRoundKey (rk 0) (invSubBytes (invShiftRows (inverseRounds rk (nr - 1) (addRoundKey (rk nr) b))))

/-- INVSUBBYTES (44_inverse_cipher.md R164). -/
def execInvsubbytes (s : State) : Outcome := succeed (s.setState (invSubBytes s.state))

/-- INVSHIFTROWS (44_inverse_cipher.md R165). -/
def execInvshiftrows (s : State) : Outcome := succeed (s.setState (invShiftRows s.state))

/-- INVMIXCOLUMNS (44_inverse_cipher.md R166). -/
def execInvmixcolumns (s : State) : Outcome := succeed (s.setState (invMixColumns s.state))

/-- DECRYPT (44_inverse_cipher.md R167): error 5 when KSV = 0. -/
def execDecrypt (s : State) : Outcome :=
  withSchedule s (succeed (s.setState (invCipher s.roundKey s.nr.toNat s.state)))

end Sys2Proof.Machine
end

