-- ==== Sys2Proof/Machine/KeySchedule.lean ====
section
/-! DEFINITION. Key expansion and the commands EXPAND and RKREAD (42_key_schedule.md). -/

namespace Sys2Proof.Machine

/-- RotWord: b0 ‖ b1 ‖ b2 ‖ b3 becomes b1 ‖ b2 ‖ b3 ‖ b0 (42_key_schedule.md R121). -/
def rotWord (w : Word) : Word := packWord (byteAt 1 w) (byteAt 2 w) (byteAt 3 w) (byteAt 0 w)

/-- SubWord: every byte through the S-box (42_key_schedule.md R121). -/
def subWord (w : Word) : Word := mapBytes sbox w

/-- rc ‖ 0x00 ‖ 0x00 ‖ 0x00 (42_key_schedule.md R122). -/
def rconWord (rc : Byte) : Word := packWord rc 0 0 0

/-- The value t that W[i] is made from, given W[i−1] and the round constant of the step (42_key_schedule.md R123). -/
def expandTerm (nk i : Nat) (rc : Byte) (prev : Word) : Word :=
  if i % nk = 0 then subWord (rotWord prev) ^^^ rconWord rc
  else if nk = 8 ∧ i % 8 = 4 then subWord prev
  else prev

/-- The loop of Expand (42_key_schedule.md R123): w holds W[0 .. i−1], rc is the next round constant, and the number
is how many words are still to make. The round constant doubles at each multiple-of-nk step (R122). -/
def expandLoop (nk : Nat) : Nat → List Word → Byte → List Word
  | 0, w, _ => w
  | n + 1, w, rc =>
    let i := w.length
    let t := expandTerm nk i rc (w.getD (i - 1) 0)
    expandLoop nk n (w ++ [t ^^^ w.getD (i - nk) 0]) (if i % nk = 0 then xtime rc else rc)

/-- Expand(nk, nr): the 4·(nr+1) words of the schedule of a key (42_key_schedule.md R120, R123). -/
def expandKey (nk nr : Nat) (key : Vector Word 8) : List Word :=
  expandLoop nk (4 * (nr + 1) - nk) (key.toList.take nk) 0x01

/-- EXPAND nk, nr (42_key_schedule.md R125): error 3 for an unsupported pair; a failed EXPAND writes no schedule. -/
def execExpand (nk nr : Nat) (s : State) : Outcome :=
  if supportedKey nk nr then succeed (s.setSchedule nk nr (expandKey nk nr s.key))
  else raiseError .invalidParam s

/-- RKREAD i (42_key_schedule.md R126): error 5 when KSV = 0, then error 6 when i ≥ 4·(NR+1). -/
def execRkread (i : Nat) (s : State) : Outcome :=
  withSchedule s
    (if i ≥ s.scheduleWords then raiseError .range s else succeed (s.setResult (s.rkWord i)))

end Sys2Proof.Machine
end

