-- ==== Sys2Proof/Machine/TableCommands.lean ====
section
/-! DEFINITION. The table commands SBOX, INVSBOX, GINV and MULC (41_gf_tables.md section 3). Each writes RESULT only;
none reads or writes STATE, KEY, RK, NK, NR or KSV, and none needs a key schedule. -/

namespace Sys2Proof.Machine

/-- `RESULT <- zext_32(b)`, the end of every table command (10_state.md R28). -/
def tableResult (b : Byte) (s : State) : Outcome := succeed (s.setResult (b.setWidth 32))

/-- SBOX x (41_gf_tables.md R100). -/
def execSbox (x : Byte) (s : State) : Outcome := tableResult (sbox x) s

/-- INVSBOX y (41_gf_tables.md R101). -/
def execInvsbox (y : Byte) (s : State) : Outcome := tableResult (invSbox y) s

/-- GINV x (41_gf_tables.md R102). -/
def execGinv (x : Byte) (s : State) : Outcome := tableResult (ginv x) s

/-- MULC x, m (41_gf_tables.md R103): error 4 when m has no table. -/
def execMulc (x m : Byte) (s : State) : Outcome :=
  match mulRom m with
  | some t => tableResult (romRead t x) s
  | none => raiseError .badConstant s

end Sys2Proof.Machine
end

