-- ==== Sys2Proof/Machine/Dispatch.lean ====
section
/-! DEFINITION. The completion of a decoded command: one arm for each command (30_encoding.md R74). -/

namespace Sys2Proof.Machine

/-- Perform a decoded command's rule and write its completion fields (10_state.md R36). -/
def exec (i : Instr) (s : State) : Host.Outcome State Fault Refusal :=
  match i with
  | .sbox x => Sys2Proof.Machine.execSbox x s
  | .invsbox y => Sys2Proof.Machine.execInvsbox y s
  | .ginv x => Sys2Proof.Machine.execGinv x s
  | .mulc x m => Sys2Proof.Machine.execMulc x m s
  | .expand nk nr => Sys2Proof.Machine.execExpand nk nr s
  | .rkread n => Sys2Proof.Machine.execRkread n s
  | .subbytes => Sys2Proof.Machine.execSubbytes s
  | .shiftrows => Sys2Proof.Machine.execShiftrows s
  | .mixcolumns => Sys2Proof.Machine.execMixcolumns s
  | .addrk r => Sys2Proof.Machine.execAddrk r s
  | .invsubbytes => Sys2Proof.Machine.execInvsubbytes s
  | .invshiftrows => Sys2Proof.Machine.execInvshiftrows s
  | .invmixcolumns => Sys2Proof.Machine.execInvmixcolumns s
  | .encrypt => Sys2Proof.Machine.execEncrypt s
  | .decrypt => Sys2Proof.Machine.execDecrypt s

end Sys2Proof.Machine
end

