-- ==== Sys2Proof/Machine/Sequencer.lean ====
section
/-! DEFINITION. The command sequencer: the completion step (10_state.md R36, 30_encoding.md R73) and whose turn it
is (70_reset_and_hazards.md R213). -/

namespace Sys2Proof.Machine

/-- The completion step for the pending word v: Execute(v), with the checks of 30_encoding.md R73. -/
def completeCommand (v : Word) (s : State) : Outcome :=
  match decode v with
  | .ok i => exec i s
  | .error e => raiseError e s

/-- One step of core and host. With a command pending and no delay left the core completes it; while a delay is
left one step of it passes and the host has its turn; with no command pending the host has its turn. -/
def turn (s : State) : Outcome :=
  match s.pending with
  | none => hostTurn s
  | some v =>
    match s.delay with
    | 0 => completeCommand v s
    | d + 1 => hostTurn (s.setDelay d)

/-- The command word `v` accepted and due at the next step (10_state.md R36, with LAT = 0). -/
def State.withCommand (s : State) (v : Word) : State :=
  { s with cmdreg := v, pending := some v, done := false, delay := 0 }

end Sys2Proof.Machine
end

