-- ==== Sys2Proof/Machine/Assembler.lean ====
section
/-! DEFINITION. The lines and pseudo-operations of a host program as lists of host accesses, and the results of the
ones that have one (30_encoding.md R78, R79). Their text spelling is notation and is not modelled (log entry 10). -/

namespace Sys2Proof.Machine

/-- The byte offset of a register (20_memory.md R51). Reserved offsets have no name. -/
def HostReg.offset : HostReg → Byte
  | .cmd => 0x00
  | .status => 0x04
  | .ctrl => 0x08
  | .result => 0x0C
  | .state c => BitVec.ofNat 8 (0x10 + 4 * c.val)
  | .key i => BitVec.ofNat 8 (0x20 + 4 * i.val)
  | .reserved => 0x40

/-- `WR <reg>, value` (30_encoding.md R78). -/
def asmWr (r : HostReg) (v : Word) : List HostAct := [.write r.offset v]

/-- `RD <reg>` (30_encoding.md R78). -/
def asmRd (r : HostReg) : List HostAct := [.read r.offset]

/-- A raw command word: one host write MemWrite(0x00, 4, word) (30_encoding.md R78). -/
def asmWord (v : Word) : List HostAct := asmWr .cmd v

/-- A command line: the write of its encoding (30_encoding.md R78). -/
def asmCommand (i : Instr) : List HostAct := asmWord (encode i)

/-- `WAIT` (30_encoding.md R79). -/
def asmWait : List HostAct := [.wait]

/-- `CLR`: `WR STATUS, 0x0000000E` (30_encoding.md R79). -/
def asmClr : List HostAct := asmWr .status 0x0000000E

/-- The words of a byte string, four bytes each, first byte in bits 31:24 (20_memory.md R53, R54). -/
def wordsOfBytes : List Byte → List Word
  | b0 :: b1 :: b2 :: b3 :: rest => packWord b0 b1 b2 b3 :: wordsOfBytes rest
  | _ => []

/-- `LOADKEY k`: `WR KEYi` for i = 0 .. len/4 − 1 (30_encoding.md R79); k has 16, 24 or 32 bytes. -/
def asmLoadKey (k : List Byte) : List HostAct :=
  (wordsOfBytes k).zipIdx.flatMap fun (w, i) => asmWr (.key (Fin.ofNat 8 i)) w

/-- `LOADSTATE b`: `WR STATEc` for c = 0..3 (30_encoding.md R79); b has 16 bytes. -/
def asmLoadState (b : List Byte) : List HostAct :=
  (wordsOfBytes b).zipIdx.flatMap fun (w, c) => asmWr (.state (Fin.ofNat 4 c)) w

/-- `READSTATE`: `RD STATE0` .. `RD STATE3` (30_encoding.md R79). -/
def asmReadState : List HostAct := asmRd (.state 0) ++ asmRd (.state 1) ++ asmRd (.state 2) ++ asmRd (.state 3)

/-- The bytes of words, each from bits 31:24 down, in the order of the words (20_memory.md R52, R53). -/
def bytesOfWords (ws : List Word) : List Byte :=
  ws.flatMap fun w => [byteAt 0 w, byteAt 1 w, byteAt 2 w, byteAt 3 w]

/-- The result of the `RD` line just performed: "the value read is the line's result" (30_encoding.md R78). -/
def State.lineResult (s : State) : Option Word := s.got.head?

/-- The block of the `READSTATE` just performed: "the four words' bytes in that order" (30_encoding.md R79). State.got
has the newest value first. -/
def State.readBlock (s : State) : List Byte := bytesOfWords (s.got.take 4).reverse

/-- `DO <command>`: the command, then `WAIT` (30_encoding.md R79). -/
def asmDo (i : Instr) : List HostAct := asmCommand i ++ asmWait

end Sys2Proof.Machine
end

