-- ==== Sys2Proof/Safety.lean ====
section
/-! DEFINITION. What the statements call a sound state, a finished run and a well-behaved host. -/

namespace Sys2Proof.Machine

/-- A sound state of the registers: while a command is pending CMDREG holds it and DONE is 0 (10_state.md R29, R32,
R36); NK and NR are those of a supported key when KSV = 1, and 0 when KSV = 0 (R26, R27); ERRCODE is one of 0 .. 6
(R35). -/
def State.sound (s : State) : Bool :=
  (match s.pending with
   | none => true
   | some v => decide (s.cmdreg = v) && !s.done) &&
  (if s.ksv then supportedKey s.nk.toNat s.nr.toNat else decide (s.nk = 0) && decide (s.nr = 0)) &&
  decide (s.errcode.toNat ≤ 6)

/-- RK holds a complete schedule produced by EXPAND from some key whenever KSV = 1 (10_state.md R27). -/
def State.ScheduleComplete (s : State) : Prop :=
  s.ksv = true → ∃ key : Vector Word 8, ∀ i, i < s.scheduleWords →
    s.rk[i]? = (expandKey s.nk.toNat s.nr.toNat key)[i]?

/-- The command word `v` completes in this step (10_state.md R36). -/
abbrev State.due (s : State) (v : Word) : Prop := s.pending = some v ∧ s.delay = 0

/-- It is the host's turn, its next action is `a` and `rest` follows (70_reset_and_hazards.md R213). -/
abbrev State.hostDoes (s : State) (a : HostAct) (rest : List HostAct) : Prop :=
  s.script = a :: rest ∧ (s.pending = none ∨ s.delay ≠ 0)

/-- The run has ended: the host has performed its last access and no command is pending (10_state.md R42). -/
def State.final (s : State) : Bool := s.script.isEmpty && !s.busy

/-- A host access at a word-aligned offset, or no access at all (20_memory.md R55). -/
def HostAct.aligned : HostAct → Bool
  | .read off => off.toNat % 4 == 0
  | .write off _ => off.toNat % 4 == 0
  | .wait => true
  | .waitIrq => true
  | .reset => true

/-- The host keeps the contract of 20_memory.md R55 for the rest of its script. -/
def State.hostAligned (s : State) : Bool := s.script.all HostAct.aligned

/-- The host asserts no reset in the rest of its script. -/
def State.noReset (s : State) : Bool := s.script.all fun a => decide (a ≠ .reset)

/-- Commands completed one after another, each on the state the one before left. -/
def execAll : List Instr → State → Outcome
  | [], s => .next s
  | i :: is, s =>
    match exec i s with
    | .next t => execAll is t
    | .fault f => .fault f
    | .refused r => .refused r

/-- The step commands of one forward round (95_test_vectors.md P4). -/
def forwardRoundCommands (r : Nat) : List Instr := [.subbytes, .shiftrows, .mixcolumns, .addrk r]

/-- ENCRYPT as step commands: ADDRK 0, rounds 1 .. nr − 1, and the final round (43_forward_cipher.md R149). -/
def encryptCommands (nr : Nat) : List Instr :=
  .addrk 0 :: ((List.range (nr - 1)).flatMap fun r => forwardRoundCommands (r + 1)) ++
    [.subbytes, .shiftrows, .addrk nr]

/-- The step commands of one inverse round (95_test_vectors.md P8). -/
def inverseRoundCommands (r : Nat) : List Instr := [.invshiftrows, .invsubbytes, .addrk r, .invmixcolumns]

/-- DECRYPT as step commands: ADDRK nr, rounds nr − 1 down to 1, and the final stage (44_inverse_cipher.md R163). -/
def decryptCommands (nr : Nat) : List Instr :=
  .addrk nr :: ((List.range (nr - 1)).reverse.flatMap fun r => inverseRoundCommands (r + 1)) ++
    [.invshiftrows, .invsubbytes, .addrk 0]

end Sys2Proof.Machine
end

