-- ==== Sys2Proof/Certificates/Slice0/Obligations.lean ====
section
/-! DEFINITION. The statements for the provers, each a proposition about the model; OBLIGATIONS.json lists them. The
right sides are written out as record updates, so a statement of a result is also its frame: a field that is not named
is unchanged. -/

open Sys2Proof Sys2Proof.Machine

/-- For every well-formed command, with every operand at every value its byte admits, decode (encode i) is i (R70,
R71, R72, R73, R74; tier 3). -/
def Obligations.DecodeEncodeRoundTrip : Prop :=
  ∀ i : Instr, i.wellFormed = true → decode (encode i) = .ok i

/-- Every word the decoder accepts is the encoding of the command it gives, and that command is well formed: no bit
of an accepted word is ignored (R72, R74, R76, R77; tier 2). -/
def Obligations.DecodedWordIsItsEncoding : Prop :=
  ∀ (v : Word) (i : Instr), decode v = .ok i → i.wellFormed = true ∧ encode i = v

/-- One word of every family, as the spec writes it, decodes to its command: 0x00005301, 0x00025704, 0x000A0410,
0x00002B11, 0x00000022, 0x00000123, 0x00000029, 0x00000030, 0x00000031 (R72, R74, R100, R103, R125, R126, R148;
tier 1). -/
def Obligations.SpecCommandWordsDecode : Prop :=
  decode 0x00005301 = .ok (.sbox 0x53) ∧ decode 0x00025704 = .ok (.mulc 0x57 0x02) ∧
  decode 0x000A0410 = .ok (.expand 4 10) ∧ decode 0x00002B11 = .ok (.rkread 43) ∧
  decode 0x00000022 = .ok .mixcolumns ∧ decode 0x00000123 = .ok (.addrk 1) ∧
  decode 0x00000029 = .ok .invshiftrows ∧ decode 0x00000030 = .ok .encrypt ∧ decode 0x00000031 = .ok .decrypt

/-- When a command word is pending and no delay is left: if it decodes to i the step is exec of i on that state; if
it decodes to an error the step answers the state with the completion fields of that error. While a delay is
left, or nothing is pending, the step is the host turn. That LAT is counted in steps, each of them one host
turn, is the choice of log entry 3 (R36, R73, R213; tier 1). -/
def Obligations.StepRunsTheDecodedCommand : Prop :=
  (∀ (s : State) (v : Word) (i : Instr), s.pending = some v → s.delay = 0 → decode v = .ok i →
    step s = exec i s) ∧
  (∀ (s : State) (v : Word) (e : CmdError), s.pending = some v → s.delay = 0 → decode v = .error e →
    step s = .next { s with pending := none, done := true, err := true, errcode := errorCode e }) ∧
  (∀ (s : State) (v : Word) (d : Nat), s.pending = some v → s.delay = d + 1 →
    step s = hostTurn { s with delay := d }) ∧
  (∀ s : State, s.pending = none → step s = hostTurn s)

/-- For every state and every well-formed command, the next step after withFetchWord of its encoding is exec of that
command on the state with the command accepted and due. What withFetchWord sets is the choice of log entry 4
(R36, R72, R73; tier 2). -/
def Obligations.PlacedCommandRunsNext : Prop :=
  ∀ (s : State) (i : Instr), i.wellFormed = true →
    step (s.withFetchWord 32 (encode i).toNat) =
      exec i { s with cmdreg := encode i, pending := some (encode i), done := false, delay := 0 }

/-- When the pending word is due and its low byte is one of the unassigned values of R75, whatever its other fields
hold, the step writes the completion fields with ERRCODE = 1 and nothing else (R75, R184; tier 2). -/
def Obligations.UnassignedOpcodeCompletesWithError1 : Prop :=
  ∀ (s : State) (v : Word), s.pending = some v → s.delay = 0 →
    (let o := v.toNat % 256
     o = 0x00 ∨ (0x05 ≤ o ∧ o ≤ 0x0F) ∨ (0x12 ≤ o ∧ o ≤ 0x1F) ∨ (0x24 ≤ o ∧ o ≤ 0x27) ∨
       (0x2B ≤ o ∧ o ≤ 0x2F) ∨ 0x32 ≤ o) →
    step s = .next { s with pending := none, done := true, err := true, errcode := 1 }

/-- When the pending word is due, its opcode is assigned, and Z is not 0, or A is not 0 in format N, or B is not 0
in formats N, X or I, the step writes the completion fields with ERRCODE = 2 and nothing else (R185; tier 2). -/
def Obligations.NonzeroReservedFieldCompletesWithError2 : Prop :=
  ∀ (s : State) (v : Word), s.pending = some v → s.delay = 0 →
    (let o := v.toNat % 256
     let a := v.toNat / 0x100 % 256
     let b := v.toNat / 0x10000 % 256
     let z := v.toNat / 0x1000000
     o ∈ [0x01, 0x02, 0x03, 0x04, 0x10, 0x11, 0x20, 0x21, 0x22, 0x23, 0x28, 0x29, 0x2A, 0x30, 0x31] ∧
       (z ≠ 0 ∨ (a ≠ 0 ∧ o ∈ [0x20, 0x21, 0x22, 0x28, 0x29, 0x2A, 0x30, 0x31]) ∨
         (b ≠ 0 ∧ o ≠ 0x04 ∧ o ≠ 0x10))) →
    step s = .next { s with pending := none, done := true, err := true, errcode := 2 }

/-- For every state and byte x, exec of SBOX x answers the state with RESULT = zext_32(affine(ginv(x))) and the
completion fields of a success; for x = 0 that is 0x63. Every other field is unchanged. The bit matrix of affine
is the decision D26 of the spec, marked there as general knowledge (log entry 11) (R95, 92_eei_decisions.md D26;
tier 2). -/
def Obligations.SboxReadsTheAffineOfTheInverse : Prop :=
  (∀ (s : State) (x : Byte), exec (.sbox x) s =
    .next { s with result := (affine (fieldInverse x)).setWidth 32, pending := none, done := true, errcode := 0 }) ∧
  affine (fieldInverse 0x00) = 0x63

/-- For every state and byte y, exec of INVSBOX y leaves RESULT = zext_32(x) where x is the one byte with
affine(ginv(x)) = y; x is also the closed form ginv(rotl8(y,1) xor rotl8(y,3) xor rotl8(y,6) xor 0x05). The
S-box applied twice gives x only for 0x73 and 0x8F. The bit matrix of affine (D26) and the closed form (R96) are
marked in the spec as general knowledge (log entry 11) (R96, 92_eei_decisions.md D26; tier 2). -/
def Obligations.InvsboxIsThePositionalInverse : Prop :=
  (∀ (s : State) (y : Byte), ∃ x : Byte,
    exec (.invsbox y) s = .next { s with result := x.setWidth 32, pending := none, done := true, errcode := 0 } ∧
    affine (fieldInverse x) = y ∧ (∀ x', affine (fieldInverse x') = y → x' = x) ∧
    x = fieldInverse (y.rotateLeft 1 ^^^ y.rotateLeft 3 ^^^ y.rotateLeft 6 ^^^ 0x05)) ∧
  (∀ x : Byte, affine (fieldInverse (affine (fieldInverse x))) = x ↔ x = 0x73 ∨ x = 0x8F)

/-- For every state and byte x, exec of GINV x leaves RESULT = zext_32(y): y = 0 if x = 0, and otherwise x times y =
1 in the field, no other byte has that property, and y is the 254th power of x (fieldInverse) (R93; tier 2). -/
def Obligations.GinvReadsTheUniqueInverse : Prop :=
  ∀ (s : State) (x : Byte), ∃ y : Byte,
    exec (.ginv x) s = .next { s with result := y.setWidth 32, pending := none, done := true, errcode := 0 } ∧
    (x = 0x00 → y = 0x00) ∧
    (x ≠ 0x00 → gmul x y = 0x01 ∧ ∀ z, gmul x z = 0x01 → z = y) ∧ y = fieldInverse x

/-- For every state, byte x and m in 2, 3, 9, 11, 13, 14, exec of MULC x, m answers the state with RESULT =
zext_32(gmul(x, m)) and the completion fields of a success; nothing else changes (R92, R97, R103; tier 2). -/
def Obligations.MulcReadsTheFieldProduct : Prop :=
  ∀ (s : State) (x m : Byte), m ∈ [0x02, 0x03, 0x09, 0x0B, 0x0D, 0x0E] →
    exec (.mulc x m) s = .next { s with result := (gmul x m).setWidth 32, pending := none, done := true, errcode := 0 }

/-- For every state, byte x and m not in 2, 3, 9, 11, 13, 14, exec of MULC x, m writes the completion fields with
ERRCODE = 4 and nothing else (R186; tier 1). -/
def Obligations.MulcWithoutATableIsBadConstant : Prop :=
  ∀ (s : State) (x m : Byte), m ∉ [0x02, 0x03, 0x09, 0x0B, 0x0D, 0x0E] →
    exec (.mulc x m) s = .next { s with pending := none, done := true, err := true, errcode := 4 }

/-- For every state, bytes a and b and table constant m, the three MULC commands answer next states and the RESULT
for a xor b is the xor of the RESULTs for a and b (R98, R103; tier 2). -/
def Obligations.MultiplyTablesAreLinear : Prop :=
  ∀ (s : State) (a b m : Byte), m ∈ [0x02, 0x03, 0x09, 0x0B, 0x0D, 0x0E] →
    ∃ t u w, exec (.mulc a m) s = .next t ∧ exec (.mulc b m) s = .next u ∧
      exec (.mulc (a ^^^ b) m) s = .next w ∧ w.result = t.result ^^^ u.result

/-- For each supported pair and every key, the schedule has 4(nr+1) words; the first nk are the key words; each
later W[i] is W[i-nk] xor a term: SubWord(RotWord(W[i-1])) xor the round constant at multiples of nk,
SubWord(W[i-1]) when nk = 8 and i mod 8 = 4, W[i-1] otherwise. SubWord is written with affine(ginv), RotWord as
a rotation by 8 bits, the j-th round constant as j-1 doublings of 1 in bits 31:24. The byte that takes the round
constant (D24) and the bit matrix of affine (D26) are decisions the spec marks as general knowledge (log entry
11) (R120, R123, 92_eei_decisions.md D24, 92_eei_decisions.md D26; tier 2). -/
def Obligations.ScheduleFollowsTheRecurrence : Prop :=
  ∀ (nk nr : Nat) (key : Vector Word 8), (nk, nr) ∈ [(4, 10), (6, 12), (8, 14)] →
    (let w := expandKey nk nr key
     let sub := mapBytes fun x => affine (fieldInverse x)
     w.length = 4 * (nr + 1) ∧
     (∀ i, i < nk → w[i]? = key[i]?) ∧
     (∀ i, nk ≤ i → i < 4 * (nr + 1) →
       w.getD i 0 = w.getD (i - nk) 0 ^^^
         (if i % nk = 0 then
            sub ((w.getD (i - 1) 0).rotateLeft 8) ^^^ ((xtime^[i / nk - 1] 0x01).setWidth 32 <<< 24)
          else if nk = 8 ∧ i % 8 = 4 then sub (w.getD (i - 1) 0)
          else w.getD (i - 1) 0)))

/-- For every state and supported pair, exec of EXPAND answers a next state in which RK[i] is word i of the
expansion of KEY for i below 4(nr+1) and its old value above, NK = nk, NR = nr, KSV = 1, with the completion
fields of a success; nothing else changes (R25, R26, R27, R125; tier 2). -/
def Obligations.ExpandWritesTheSchedule : Prop :=
  ∀ (s : State) (nk nr : Nat), (nk, nr) ∈ [(4, 10), (6, 12), (8, 14)] →
    ∃ rk' : Vector Word 60,
      exec (.expand nk nr) s = .next { s with
        rk := rk', nk := BitVec.ofNat 4 nk, nr := BitVec.ofNat 4 nr, ksv := true, pending := none, done := true, errcode := 0 } ∧
      ∀ i, i < 60 → rk'[i]? = if i < 4 * (nr + 1) then (expandKey nk nr s.key)[i]? else s.rk[i]?

/-- For every state: EXPAND of (4,10), (6,12) and (8,14) answers a next state with ERRCODE = 0; EXPAND of any other
pair writes the completion fields with ERRCODE = 3 and nothing else, so an earlier schedule stays valid (R183;
tier 1). -/
def Obligations.UnsupportedExpandIsInvalidParameter : Prop :=
  ∀ (s : State) (nk nr : Nat),
    ((nk, nr) ∈ [(4, 10), (6, 12), (8, 14)] → ∃ t, exec (.expand nk nr) s = .next t ∧ t.errcode = 0) ∧
    ((nk, nr) ∉ [(4, 10), (6, 12), (8, 14)] →
      exec (.expand nk nr) s = .next { s with pending := none, done := true, err := true, errcode := 3 })

/-- In a sound state with KSV = 1, for every i below 4(NR+1), RK has a word i and exec of RKREAD i answers the state
with RESULT = that word and the completion fields of a success (R25, R126; tier 2). -/
def Obligations.RkreadReturnsTheScheduleWord : Prop :=
  ∀ (s : State) (i : Nat), s.sound = true → s.ksv = true → i < 4 * (s.nr.toNat + 1) →
    ∃ w, s.rk[i]? = some w ∧ exec (.rkread i) s = .next { s with result := w, pending := none, done := true, errcode := 0 }

/-- In a sound state with KSV = 1, ADDRK r with r > NR and RKREAD i with i at least 4(NR+1) write the completion
fields with ERRCODE = 6 and nothing else (R188; tier 2). -/
def Obligations.IndexBeyondTheScheduleIsRangeError : Prop :=
  (∀ (s : State) (r : Nat), s.sound = true → s.ksv = true → r > s.nr.toNat →
    exec (.addrk r) s = .next { s with pending := none, done := true, err := true, errcode := 6 }) ∧
  (∀ (s : State) (i : Nat), s.sound = true → s.ksv = true → i ≥ 4 * (s.nr.toNat + 1) →
    exec (.rkread i) s = .next { s with pending := none, done := true, err := true, errcode := 6 })

/-- In every state with KSV = 0 and for every operand, the four commands write the completion fields with ERRCODE =
5 and nothing else (5 also where the index would be out of range) (R187; tier 1). -/
def Obligations.CommandsWithoutAScheduleRecordError5 : Prop :=
  ∀ s : State, s.ksv = false →
    (∀ i, exec (.rkread i) s = .next { s with pending := none, done := true, err := true, errcode := 5 }) ∧
    (∀ r, exec (.addrk r) s = .next { s with pending := none, done := true, err := true, errcode := 5 }) ∧
    exec .encrypt s = .next { s with pending := none, done := true, err := true, errcode := 5 } ∧
    exec .decrypt s = .next { s with pending := none, done := true, err := true, errcode := 5 }

/-- For every state, exec of SUBBYTES answers the state with STATE = b and the completion fields of a success, where
every byte of b is affine(ginv) of the byte at the same row and column before. The bit matrix of affine is the
decision D26 of the spec, marked there as general knowledge (log entry 11) (R140, 92_eei_decisions.md D26; tier
2). -/
def Obligations.SubbytesSubstitutesEveryByte : Prop :=
  ∀ s : State, ∃ b : Block, exec .subbytes s = .next { s with state := b, pending := none, done := true, errcode := 0 } ∧
    ∀ r c, b.byte r c = affine (fieldInverse (s.state.byte r c))

/-- For every state, exec of SHIFTROWS answers the state with STATE = b and the completion fields of a success,
where row r, column c of b is row r, column (c + r) mod 4 before (R141; tier 1). -/
def Obligations.ShiftrowsRotatesRowsLeft : Prop :=
  ∀ s : State, ∃ b : Block, exec .shiftrows s = .next { s with state := b, pending := none, done := true, errcode := 0 } ∧
    ∀ r c : Fin 4, b.byte r c = s.state.byte r (Fin.ofNat 4 (c.val + r.val))

/-- For every state, exec of MIXCOLUMNS answers the state with STATE = b and the completion fields of a success,
where row r, column c of b is the xor over k of S[k][c] times (2,3,1,1)[(k - r) mod 4]. The orientation of the
matrix is the decision D25 of the spec, marked there as general knowledge (log entry 11) (R142,
92_eei_decisions.md D25; tier 2). -/
def Obligations.MixcolumnsMultipliesByTheMatrix : Prop :=
  ∀ s : State, ∃ b : Block, exec .mixcolumns s = .next { s with state := b, pending := none, done := true, errcode := 0 } ∧
    ∀ r c : Fin 4, b.byte r c = List.foldl (fun acc k => acc ^^^ gmul (s.state.byte k c) (([0x02, 0x03, 0x01, 0x01] : List Byte).getD ((k.val + 4 - r.val) % 4) 0)) 0
      [0, 1, 2, 3]

/-- In a sound state with KSV = 1 and for r at most NR, exec of ADDRK r answers the state with STATEc = STATEc xor
RK[4r + c] and the completion fields of a success; a second ADDRK r restores STATE (R143; tier 2). -/
def Obligations.AddrkXorsTheRoundKey : Prop :=
  ∀ (s : State) (r : Nat), s.sound = true → s.ksv = true → r ≤ s.nr.toNat →
    ∃ b : Block, exec (.addrk r) s = .next { s with state := b, pending := none, done := true, errcode := 0 } ∧
      (∀ c : Fin 4, some (b.column c) = s.rk[4 * r + c.val]?.map (s.state.column c ^^^ ·)) ∧
      exec (.addrk r) { s with state := b, pending := none, done := true, errcode := 0 } = .next { s with pending := none, done := true, errcode := 0 }

/-- In every sound state with KSV = 1, ENCRYPT answers a next state that differs from the state before only in STATE
and the completion fields, and completing ADDRK 0, then SUBBYTES, SHIFTROWS, MIXCOLUMNS, ADDRK r for r = 1 ..
NR-1, then SUBBYTES, SHIFTROWS, ADDRK NR gives the same outcome (R144, R149; tier 2). -/
def Obligations.EncryptEqualsItsStepCommands : Prop :=
  ∀ s : State, s.sound = true → s.ksv = true →
    (∃ b : Block, exec .encrypt s = .next { s with state := b, pending := none, done := true, errcode := 0 }) ∧
    execAll (encryptCommands s.nr.toNat) s = exec .encrypt s

/-- For every state, exec of INVSUBBYTES answers the state with STATE = b and the completion fields of a success,
where affine(ginv) of each byte of b is the byte at the same place before; the two steps undo each other in both
orders. The bit matrix of affine is the decision D26 of the spec, marked there as general knowledge (log entry
11) (R160, 92_eei_decisions.md D26; tier 2). -/
def Obligations.InvsubbytesUndoesSubbytes : Prop :=
  (∀ s : State, ∃ b : Block, exec .invsubbytes s = .next { s with state := b, pending := none, done := true, errcode := 0 } ∧
    ∀ r c, affine (fieldInverse (b.byte r c)) = s.state.byte r c) ∧
  (∀ b : Block, invSubBytes (subBytes b) = b ∧ subBytes (invSubBytes b) = b)

/-- For every state, exec of INVSHIFTROWS answers the state with STATE = b and the completion fields of a success,
where row r, column c of b is row r, column (c - r) mod 4 before. It is the exact inverse of ShiftRows and
commutes with SubBytes and InvSubBytes (R161; tier 2). -/
def Obligations.InvshiftrowsRotatesRowsRight : Prop :=
  (∀ s : State, ∃ b : Block, exec .invshiftrows s = .next { s with state := b, pending := none, done := true, errcode := 0 } ∧
    ∀ r c : Fin 4, b.byte r c = s.state.byte r (Fin.ofNat 4 (c.val + 4 - r.val))) ∧
  (∀ b : Block, invShiftRows (shiftRows b) = b ∧ shiftRows (invShiftRows b) = b ∧
    invShiftRows (subBytes b) = subBytes (invShiftRows b) ∧
    invShiftRows (invSubBytes b) = invSubBytes (invShiftRows b))

/-- For every state, exec of INVMIXCOLUMNS answers the state with STATE = b and the completion fields of a success,
where row r, column c of b is the xor over k of S[k][c] times (14,11,13,9)[(k - r) mod 4];
InvMixColumns(MixColumns(b)) = b for every block. The orientation of the matrix is the decision D25 of the spec,
marked there as general knowledge (log entry 11) (R162, 92_eei_decisions.md D25; tier 2). -/
def Obligations.InvmixcolumnsMultipliesByTheInverseMatrix : Prop :=
  (∀ s : State, ∃ b : Block, exec .invmixcolumns s = .next { s with state := b, pending := none, done := true, errcode := 0 } ∧
    ∀ r c : Fin 4, b.byte r c = List.foldl (fun acc k => acc ^^^ gmul (s.state.byte k c) (([0x0E, 0x0B, 0x0D, 0x09] : List Byte).getD ((k.val + 4 - r.val) % 4) 0)) 0
      [0, 1, 2, 3]) ∧
  (∀ b : Block, invMixColumns (mixColumns b) = b)

/-- In every sound state with KSV = 1, DECRYPT answers a next state that differs only in STATE and the completion
fields, and completing ADDRK NR, then INVSHIFTROWS, INVSUBBYTES, ADDRK r, INVMIXCOLUMNS for r = NR-1 down to 1,
then INVSHIFTROWS, INVSUBBYTES, ADDRK 0 gives the same outcome (R163, R167; tier 2). -/
def Obligations.DecryptEqualsItsStepCommands : Prop :=
  ∀ s : State, s.sound = true → s.ksv = true →
    (∃ b : Block, exec .decrypt s = .next { s with state := b, pending := none, done := true, errcode := 0 }) ∧
    execAll (decryptCommands s.nr.toNat) s = exec .decrypt s

/-- In every sound state with KSV = 1 (every schedule built by EXPAND among them), ENCRYPT answers a next state in
which DECRYPT answers the state before with the completion fields of a success; the same with the two commands
exchanged (R168; tier 2). -/
def Obligations.DecryptUndoesEncrypt : Prop :=
  ∀ s : State, s.sound = true → s.ksv = true →
    (∃ t, exec .encrypt s = .next t ∧ exec .decrypt t = .next { s with pending := none, done := true, errcode := 0 }) ∧
    (∃ t, exec .decrypt s = .next t ∧ exec .encrypt t = .next { s with pending := none, done := true, errcode := 0 })

/-- From any state whose KEY0..3 hold 000102..0f, EXPAND 4, 10 and then, with the published plaintext in STATE,
ENCRYPT leave the published ciphertext in STATE, whatever KEY4..7, RK and all else held before (R125, R149,
95_test_vectors.md V1; tier 2). -/
def Obligations.PublishedVectorEncrypts : Prop :=
  ∀ s : State, s.key[0] = 0x00010203 → s.key[1] = 0x04050607 → s.key[2] = 0x08090A0B → s.key[3] = 0x0C0D0E0F →
    ∃ t u, exec (.expand 4 10) s = .next t ∧
      exec .encrypt { t with state := ⟨0x00112233, 0x44556677, 0x8899AABB, 0xCCDDEEFF⟩ } = .next u ∧
      u.state = ⟨0x69C4E0D8, 0x6A7B0430, 0xD8CDB780, 0x70B4C55A⟩

/-- When exec of any command answers a next state t: CMDREG, KEY, OVR, CTRL.IE and the host side are unchanged,
Pending is none, DONE is 1; and either ERRCODE is 0 and ERR is unchanged, or ERRCODE is not 0, ERR is 1 and
STATE, RK, NK, NR, KSV and RESULT are unchanged too (R28, R36, R180, R181; tier 2). -/
def Obligations.CompletionFrame : Prop :=
  ∀ (i : Instr) (s t : State), exec i s = .next t →
    t.cmdreg = s.cmdreg ∧ t.key = s.key ∧ t.ovr = s.ovr ∧ t.ie = s.ie ∧
    t.script = s.script ∧ t.got = s.got ∧ t.lat = s.lat ∧ t.delay = s.delay ∧ t.draws = s.draws ∧
    t.pending = none ∧ t.done = true ∧
    ((t.errcode = 0 ∧ t.err = s.err) ∨
     (t.errcode ≠ 0 ∧ t.err = true ∧ t.state = s.state ∧ t.rk = s.rk ∧ t.nk = s.nk ∧ t.nr = s.nr ∧
      t.ksv = s.ksv ∧ t.result = s.result))

/-- When exec of SBOX, INVSBOX, GINV, MULC or RKREAD answers a next state, STATE, KEY, each of the sixty RK words,
NK, NR and KSV are what they were, and OVR, CTRL.IE and CMDREG too (R28, R100, R101, R102, R103, R126; tier 2). -/
def Obligations.TableCommandsAndRkreadFrame : Prop :=
  ∀ (i : Instr) (s t : State),
    ((∃ x, i = .sbox x) ∨ (∃ y, i = .invsbox y) ∨ (∃ x, i = .ginv x) ∨ (∃ x m, i = .mulc x m) ∨
      ∃ n, i = .rkread n) →
    exec i s = .next t →
    t.state = s.state ∧ t.key = s.key ∧ (∀ n : Nat, t.rk[n]? = s.rk[n]?) ∧ t.nk = s.nk ∧ t.nr = s.nr ∧
    t.ksv = s.ksv ∧ t.ovr = s.ovr ∧ t.ie = s.ie ∧ t.cmdreg = s.cmdreg

/-- When exec of SUBBYTES, SHIFTROWS, MIXCOLUMNS, ADDRK, ENCRYPT, INVSUBBYTES, INVSHIFTROWS, INVMIXCOLUMNS or
DECRYPT answers a next state, KEY, each of the sixty RK words, NK, NR, KSV, RESULT, OVR, CTRL.IE and CMDREG are
what they were (R145, R146, R147, R148, R149, R164, R165, R166, R167; tier 2). -/
def Obligations.StateCommandsFrame : Prop :=
  ∀ (i : Instr) (s t : State),
    (i ∈ [.subbytes, .shiftrows, .mixcolumns, .encrypt, .invsubbytes, .invshiftrows, .invmixcolumns, .decrypt] ∨
      ∃ r, i = .addrk r) →
    exec i s = .next t →
    t.key = s.key ∧ (∀ n : Nat, t.rk[n]? = s.rk[n]?) ∧ t.nk = s.nk ∧ t.nr = s.nr ∧ t.ksv = s.ksv ∧
    t.result = s.result ∧ t.ovr = s.ovr ∧ t.ie = s.ie ∧ t.cmdreg = s.cmdreg

/-- When exec of EXPAND nk, nr answers a next state, STATE, KEY, RESULT, OVR, CTRL.IE and CMDREG are what they were,
and so is every RK word at index 4(nr+1) or above (R25, R125; tier 2). -/
def Obligations.ExpandFrame : Prop :=
  ∀ (s t : State) (nk nr : Nat), exec (.expand nk nr) s = .next t →
    t.state = s.state ∧ t.key = s.key ∧ t.result = s.result ∧ t.ovr = s.ovr ∧ t.ie = s.ie ∧
    t.cmdreg = s.cmdreg ∧ ∀ n : Nat, 4 * (nr + 1) ≤ n → t.rk[n]? = s.rk[n]?

/-- State.reset satisfies both invariants: it is sound (Pending, DONE, NK, NR and ERRCODE as R201 leaves them) and
RK needs to hold no schedule because KSV = 0 (R26, R27, R35, R201; tier 1). -/
def Obligations.ResetIsSound : Prop :=
  State.reset.sound = true ∧ State.reset.ScheduleComplete

/-- From every sound state, reachable or not, whatever the host does: if the step answers a next state it is sound.
So while a command is pending CMDREG holds it and DONE = 0, KSV = 1 goes with a supported (NK, NR) and KSV = 0
with zeros, and ERRCODE 7 to 15 is never written (R26, R27, R29, R32, R35, R36; tier 3). -/
def Obligations.StepKeepsSound : Prop :=
  ∀ s t : State, s.sound = true → step s = .next t → t.sound = true

/-- If in s KSV = 1 implies that RK[0 .. 4(NR+1)-1] is the expansion of some key for NK and NR, then the same holds
of every next state (R25, R27, R125; tier 3). -/
def Obligations.StepKeepsScheduleComplete : Prop :=
  ∀ s t : State, s.ScheduleComplete → step s = .next t → t.ScheduleComplete

/-- From every sound state, a step never answers a fault, and if it is refused the refusal is misalignedAccess and
the host, whose turn it is, makes a read or write at an offset that is not a multiple of 4. So every command
completes (R55, R180; tier 3). -/
def Obligations.OnlyAMisalignedAccessStopsASoundState : Prop :=
  ∀ s : State, s.sound = true →
    (∀ f, step s ≠ .fault f) ∧
    (∀ r, step s = .refused r → r = .misalignedAccess ∧
      ∃ off rest, off.toNat % 4 ≠ 0 ∧
        (s.hostDoes (.read off) rest ∨ ∃ v, s.hostDoes (.write off v) rest))

/-- For every step that answers a next state: RK, NK, NR and KSV are unchanged, or the step completed an EXPAND of a
supported pair without error, or the host asserted reset (R127; tier 3). -/
def Obligations.OnlyExpandOrResetChangesTheSchedule : Prop :=
  ∀ s t : State, step s = .next t →
    (t.rk = s.rk ∧ t.nk = s.nk ∧ t.nr = s.nr ∧ t.ksv = s.ksv) ∨
    (∃ v nk nr, s.due v ∧ decode v = .ok (.expand nk nr) ∧ (nk, nr) ∈ [(4, 10), (6, 12), (8, 14)] ∧
      t.errcode = 0) ∨
    (∃ rest, s.hostDoes .reset rest)

/-- For every step that answers a next state: KEY is unchanged, or the host wrote an offset 0x20 to 0x3C with
nothing pending, or it asserted reset. No command writes KEY (R24, R200; tier 2). -/
def Obligations.OnlyTheHostWritesKey : Prop :=
  ∀ s t : State, step s = .next t →
    t.key = s.key ∨
    (∃ off v rest, s.hostDoes (.write off v) rest ∧ s.pending = none ∧ 0x20 ≤ off.toNat ∧ off.toNat ≤ 0x3C) ∨
    (∃ rest, s.hostDoes .reset rest)

/-- For every state and other key, unless this step completes an EXPAND of a supported pair: if the step answers t,
the step with the other key answers t with only KEY different. So what a host reads does not depend on KEY but
through a schedule. That the two steps agree in what the spec leaves free is the choice of the model: the same
delay (log entry 3; time is OPEN, R199), the same value of a STATE or RESULT read while BUSY = 1 (log entry 2;
R59 allows any value), the same words after a reset (log entry 1; R202) (R24, R63, R67; tier 3). -/
def Obligations.KeyIsSeenOnlyByExpand : Prop :=
  ∀ (s t : State) (k : Vector Word 8),
    (∀ v nk nr, s.due v → decode v = .ok (.expand nk nr) → (nk, nr) ∉ [(4, 10), (6, 12), (8, 14)]) →
    step s = .next t → ∃ k', step { s with key := k } = .next { t with key := k' }

/-- For every step that answers a next state: if it completes a command, ERR becomes 1 when ERRCODE is not 0 and is
unchanged otherwise; if not, ERR is unchanged, or it becomes 0 and the host wrote STATUS with bit 2 set or
asserted reset (R33; tier 3). -/
def Obligations.ErrIsSetByFailingAndClearedByTheHost : Prop :=
  ∀ s t : State, step s = .next t →
    (∀ v, s.due v → t.err = (s.err || decide (t.errcode ≠ 0))) ∧
    ((∀ v, ¬ s.due v) → t.err = s.err ∨
      (t.err = false ∧ ((∃ v rest, s.hostDoes (.write 0x04 v) rest ∧ v.getLsbD 2 = true) ∨
        ∃ rest, s.hostDoes .reset rest)))

/-- For every step that answers a next state: a completion sets DONE; an accepted CMD write and a STATUS write with
bit 1 set clear it; in any other step DONE is unchanged, or the host asserted reset and DONE is 0 (R32; tier 3). -/
def Obligations.DoneFollowsIssueAndCompletion : Prop :=
  ∀ s t : State, step s = .next t →
    (∀ v, s.due v → t.done = true) ∧
    (∀ v rest, s.hostDoes (.write 0x00 v) rest → s.pending = none → t.done = false) ∧
    (∀ v rest, s.hostDoes (.write 0x04 v) rest → v.getLsbD 1 = true → t.done = false) ∧
    ((∀ v, ¬ s.due v) → t.done = s.done ∨
      (t.done = false ∧ ((∃ v rest, s.hostDoes (.write 0x00 v) rest ∧ s.pending = none) ∨
        (∃ v rest, s.hostDoes (.write 0x04 v) rest ∧ v.getLsbD 1 = true) ∨
        ∃ rest, s.hostDoes .reset rest)))

/-- For every step that answers a next state: OVR is unchanged; or it is 1 and the host wrote CMD, a STATE or a KEY
offset while a command was pending; or it is 0 and the host wrote STATUS with bit 3 set or asserted reset (R34,
R59, R190; tier 3). -/
def Obligations.OvrRecordsDroppedWrites : Prop :=
  ∀ s t : State, step s = .next t →
    t.ovr = s.ovr ∨
    (t.ovr = true ∧ ∃ off v rest, s.hostDoes (.write off v) rest ∧ s.pending ≠ none ∧
      (off.toNat = 0x00 ∨ (0x10 ≤ off.toNat ∧ off.toNat ≤ 0x3C))) ∨
    (t.ovr = false ∧ ((∃ v rest, s.hostDoes (.write 0x04 v) rest ∧ v.getLsbD 3 = true) ∨
      ∃ rest, s.hostDoes .reset rest))

/-- For every step that answers a next state: RESULT is unchanged, or the step completed SBOX, INVSBOX, GINV, MULC
or RKREAD with ERRCODE = 0, or the host asserted reset (R28; tier 2). -/
def Obligations.ResultIsWrittenByTableCommandsAndRkread : Prop :=
  ∀ s t : State, step s = .next t →
    t.result = s.result ∨
    (∃ v i, s.due v ∧ decode v = .ok i ∧ t.errcode = 0 ∧
      ((∃ x, i = .sbox x) ∨ (∃ y, i = .invsbox y) ∨ (∃ x, i = .ginv x) ∨ (∃ x m, i = .mulc x m) ∨
        ∃ n, i = .rkread n)) ∨
    (∃ rest, s.hostDoes .reset rest)

/-- From a sound state with a command pending, if the host makes only aligned accesses and asserts no reset, the run
of delay + 1 steps answers a state with nothing pending, DONE = 1 and CMDREG the command. That the delay counts
steps is the choice of log entry 3 (R60, R61, R213; tier 3). -/
def Obligations.EveryAcceptedCommandCompletes : Prop :=
  ∀ (s : State) (v : Word), s.sound = true → s.pending = some v → s.hostAligned = true → s.noReset = true →
    ∃ t, Host.Core.run Sys2Proof.core (s.delay + 1) s = .next t ∧
      t.pending = none ∧ t.done = true ∧ t.cmdreg = v

/-- With a command pending, if the host makes only aligned accesses and asserts no reset, the run of delay steps
answers a state in which the command is due and STATE, KEY, RK, NK, NR, KSV and RESULT are what they were. That
the delay counts steps is the choice of log entry 3 (R36, R59; tier 3). -/
def Obligations.InputsAtCompletionEqualInputsAtIssue : Prop :=
  ∀ (s : State) (v : Word), s.pending = some v → s.hostAligned = true → s.noReset = true →
    ∃ t : State, Host.Core.run Sys2Proof.core s.delay s = .next t ∧ t.due v ∧
      t.state = s.state ∧ t.key = s.key ∧ t.rk = s.rk ∧ t.nk = s.nk ∧ t.nr = s.nr ∧ t.ksv = s.ksv ∧
      t.result = s.result

/-- With nothing pending, a read of an aligned offset returns CMDREG, STATUS, zext_32(CTRL.IE), RESULT or STATEc,
and 0 at the KEY and reserved offsets; only the host side of the state changes. That a read value is kept in the
list got is the choice of log entry 4 (R24, R51, R56, R57, R58; tier 2). -/
def Obligations.IdleReadsReturnTheRegister : Prop :=
  ∀ (s : State) (off : Byte) (rest : List HostAct), s.pending = none → s.script = .read off :: rest →
    off.toNat % 4 = 0 →
    step s = .next { s with script := rest, got :=
    (let n := off.toNat
     if n = 0x00 then s.cmdreg else if n = 0x04 then s.statusWord
     else if n = 0x08 then (if s.ie then 1 else 0) else if n = 0x0C then s.result
     else if n = 0x10 then s.state.w0 else if n = 0x14 then s.state.w1
     else if n = 0x18 then s.state.w2 else if n = 0x1C then s.state.w3 else 0) :: s.got }

/-- With nothing pending, a write of an aligned offset issues the command (0x00: CMDREG, Pending, DONE <- 0, and the
model fields of its latency), clears DONE, ERR and OVR where the written bit is 1 (0x04), writes CTRL.IE (0x08),
a STATE word (0x10 to 0x1C) or a KEY word (0x20 to 0x3C), and is ignored elsewhere. The model fields delay, lat
and draws are its choice (log entry 3) (R29, R30, R36, R37, R51, R56, R58; tier 2). -/
def Obligations.IdleWritesTakeEffect : Prop :=
  ∀ (s : State) (off : Byte) (v : Word) (rest : List HostAct), s.pending = none →
    s.script = .write off v :: rest → off.toNat % 4 = 0 →
    step s = .next
    (let n := off.toNat
     if n = 0x00 then { s with script := rest, cmdreg := v, pending := some v, done := false,
                               delay := s.nextLatency, lat := s.lat.tail, draws := s.draws + 1 }
     else if n = 0x04 then { s with script := rest, done := s.done && !v.getLsbD 1,
                                    err := s.err && !v.getLsbD 2, ovr := s.ovr && !v.getLsbD 3 }
     else if n = 0x08 then { s with script := rest, ie := v.getLsbD 0 }
     else if n = 0x10 then { s with script := rest, state := { s.state with w0 := v } }
     else if n = 0x14 then { s with script := rest, state := { s.state with w1 := v } }
     else if n = 0x18 then { s with script := rest, state := { s.state with w2 := v } }
     else if n = 0x1C then { s with script := rest, state := { s.state with w3 := v } }
     else if 0x20 ≤ n ∧ n ≤ 0x3C then
       { s with script := rest, key := s.key.setIfInBounds ((n - 0x20) / 4) v }
     else { s with script := rest })

/-- With a command pending and a delay left, an aligned write to CMD, STATE or KEY changes nothing but OVR <- 1, a
write to STATUS or CTRL takes effect, any other is ignored; a read of STATE or RESULT returns the next free
draw, any other read what it returns when idle. The delay falls by one and the script moves on. That the free
value is the next draw of Config.freeWord and that the delay counts steps are the model choices of log entries 2
and 3 (R59, R190; tier 2). -/
def Obligations.BusyHostAccesses : Prop :=
  (∀ (s : State) (p : Word) (d : Nat) (off : Byte) (v : Word) (rest : List HostAct),
    s.pending = some p → s.delay = d + 1 → s.script = .write off v :: rest → off.toNat % 4 = 0 →
    step s = .next
    (let n := off.toNat
     if n = 0x00 ∨ (0x10 ≤ n ∧ n ≤ 0x3C) then { s with script := rest, delay := d, ovr := true }
     else if n = 0x04 then { s with script := rest, delay := d, done := s.done && !v.getLsbD 1,
                                    err := s.err && !v.getLsbD 2, ovr := s.ovr && !v.getLsbD 3 }
     else if n = 0x08 then { s with script := rest, delay := d, ie := v.getLsbD 0 }
     else { s with script := rest, delay := d })) ∧
  (∀ (s : State) (p : Word) (d : Nat) (off : Byte) (rest : List HostAct),
    s.pending = some p → s.delay = d + 1 → s.script = .read off :: rest → off.toNat % 4 = 0 →
    step s = .next
    (let n := off.toNat
     if 0x0C ≤ n ∧ n ≤ 0x1C then
       { s with script := rest, delay := d, got := Config.freeWord s.draws :: s.got, draws := s.draws + 1 }
     else { s with script := rest, delay := d, got :=
       (if n = 0x00 then s.cmdreg else if n = 0x04 then s.statusWord
        else if n = 0x08 then (if s.ie then 1 else 0) else 0) :: s.got }))

/-- When it is the host turn and the next action is a read or a write at an offset that is not a multiple of 4, the
step answers the refusal misalignedAccess (R55; tier 1). -/
def Obligations.MisalignedAccessIsRefused : Prop :=
  ∀ (s : State) (off : Byte) (rest : List HostAct), off.toNat % 4 ≠ 0 →
    (s.hostDoes (.read off) rest ∨ ∃ v, s.hostDoes (.write off v) rest) →
    step s = .refused .misalignedAccess

/-- WAIT with nothing pending reads STATUS once and ends; with a command pending and a delay left it reads STATUS
and goes on. Waiting for irq with nothing pending ends when CTRL.IE and DONE are 1 and else changes nothing.
With nothing to do and nothing pending a step changes nothing. The script of the host, the list of values read
and the two waiting actions are the choice of log entry 4; that the delay falls by one in a step is the choice
of log entry 3 (R38, R42, R62, R79; tier 2). -/
def Obligations.HostWaits : Prop :=
  (∀ (s : State) (rest : List HostAct), s.script = .wait :: rest → s.pending = none →
    step s = .next { s with script := rest, got := s.statusWord :: s.got }) ∧
  (∀ (s : State) (rest : List HostAct) (p : Word) (d : Nat), s.script = .wait :: rest → s.pending = some p →
    s.delay = d + 1 → step s = .next { s with delay := d, got := s.statusWord :: s.got }) ∧
  (∀ (s : State) (rest : List HostAct), s.script = .waitIrq :: rest → s.pending = none →
    step s = .next { s with script := if s.ie = true ∧ s.done = true then rest else .waitIrq :: rest }) ∧
  (∀ s : State, s.script = [] → s.pending = none → step s = .next s)

/-- In every state: bit 0 is 1 exactly when a command is pending, bits 1 to 4 are DONE, ERR, OVR, KSV, bits 11:8
ERRCODE, 19:16 NK, 23:20 NR, and bits 7:5, 15:12 and 31:24 are 0. A host write of STATUS clears each of DONE,
ERR, OVR whose bit is 1 and changes nothing else. In the two clauses about a write, the script that moves on is
the choice of log entry 4 and the delay that falls by one is the choice of log entry 3 (R30; tier 1). -/
def Obligations.StatusWordFields : Prop :=
  (∀ s : State,
    (s.statusWord.getLsbD 0 = true ↔ s.pending ≠ none) ∧ s.statusWord.getLsbD 1 = s.done ∧
    s.statusWord.getLsbD 2 = s.err ∧ s.statusWord.getLsbD 3 = s.ovr ∧ s.statusWord.getLsbD 4 = s.ksv ∧
    s.statusWord.extractLsb' 5 3 = 0 ∧ s.statusWord.extractLsb' 8 4 = s.errcode ∧
    s.statusWord.extractLsb' 12 4 = 0 ∧ s.statusWord.extractLsb' 16 4 = s.nk ∧
    s.statusWord.extractLsb' 20 4 = s.nr ∧ s.statusWord.extractLsb' 24 8 = 0) ∧
  (∀ (s : State) (v : Word) (rest : List HostAct), s.pending = none → s.script = .write 0x04 v :: rest →
    step s = .next { s with script := rest, done := s.done && !v.getLsbD 1, err := s.err && !v.getLsbD 2,
                            ovr := s.ovr && !v.getLsbD 3 }) ∧
  (∀ (s : State) (p v : Word) (d : Nat) (rest : List HostAct), s.pending = some p → s.delay = d + 1 →
    s.script = .write 0x04 v :: rest →
    step s = .next { s with script := rest, delay := d, done := s.done && !v.getLsbD 1,
                            err := s.err && !v.getLsbD 2, ovr := s.ovr && !v.getLsbD 3 })

/-- A step that completes a command leaves irq = CTRL.IE, also when the command failed; a step that accepts a CMD
write, and a STATUS write with bit 1 set, leave irq = 0 (R38, R193; tier 2). -/
def Obligations.IrqFollowsCompletionAndIssue : Prop :=
  ∀ s t : State, step s = .next t →
    (∀ v, s.due v → t.irq = s.ie) ∧
    (∀ v rest, s.hostDoes (.write 0x00 v) rest → s.pending = none → t.irq = false) ∧
    (∀ v rest, s.hostDoes (.write 0x04 v) rest → v.getLsbD 1 = true → t.irq = false)

/-- When it is the host turn and it asserts reset, pending command or not, the step answers a state with Pending
none, STATUS, CMDREG and RESULT 0, CTRL.IE 0, irq 0; the host goes on with the rest of its script. The values of
CMDREG, RESULT, CTRL.IE and irq are those of R201; that the script goes on after a reset is the choice of log
entry 4 (R201, R204; tier 2). -/
def Obligations.ResetEventDiscardsThePendingCommand : Prop :=
  ∀ (s : State) (rest : List HostAct), s.hostDoes .reset rest →
    ∃ t, step s = .next t ∧ t.pending = none ∧ t.statusWord = 0 ∧ t.cmdreg = 0 ∧ t.result = 0 ∧ t.ie = false ∧
      t.irq = false ∧ t.ksv = false ∧ t.errcode = 0 ∧ t.script = rest

/-- When it is the host turn and it asserts reset, the step answers a state whose 4 STATE words, 8 KEY words and 60
RK words are the next 72 draws of Config.freeWord, all 72 different draws, and the values the host has read are
kept. This is the choice of log entry 1; nothing is known of a drawn value (70_reset_and_hazards.md section 1;
tier 2). -/
def Obligations.ResetDrawsNewWords : Prop :=
  ∀ (s : State) (rest : List HostAct), s.hostDoes .reset rest →
    ∃ t, step s = .next t ∧ t.got = s.got ∧ t.draws = s.draws + 72 ∧
      (∀ c : Fin 4, t.state.column c = Config.freeWord (s.draws + c.val)) ∧
      (∀ i, i < 8 → t.key[i]? = some (Config.freeWord (s.draws + 4 + i))) ∧
      (∀ i, i < 60 → t.rk[i]? = some (Config.freeWord (s.draws + 12 + i)))

/-- State.reset has CMDREG, the whole STATUS word and RESULT 0, CTRL.IE 0, Pending none and irq 0 (R201; tier 1). -/
def Obligations.ResetValues : Prop :=
  State.reset.cmdreg = 0x00000000 ∧ State.reset.statusWord = 0x00000000 ∧ State.reset.ie = false ∧
  State.reset.result = 0x00000000 ∧ State.reset.pending = none ∧ State.reset.irq = false

/-- With nothing pending and the four writes of LOADSTATE b next in the script, four steps answer a state whose
state byte at row r, column c is byte r + 4c of the block, everything else being unchanged but the script. That
each access is one step is the choice of log entry 4 (R23, R53, R79; tier 2). -/
def Obligations.LoadstateFillsTheBlockColumnByColumn : Prop :=
  ∀ (s : State) (b : List Byte) (rest : List HostAct), s.pending = none → b.length = 16 →
    s.script = asmLoadState b ++ rest →
    ∃ blk : Block, Host.Core.run Sys2Proof.core 4 s = .next { s with script := rest, state := blk } ∧
      ∀ r c : Fin 4, some (blk.byte r c) = b[r.val + 4 * c.val]?

/-- With nothing pending and the writes of LOADKEY k next in the script, len/4 steps answer a state in which byte-
position j of KEYi is byte 4i + j of the key for every i below len/4, the KEY words above are unchanged, and so
is everything else but the script. That each access is one step is the choice of log entry 4 (R24, R54, R79;
tier 2). -/
def Obligations.LoadkeyFillsTheKeyWords : Prop :=
  ∀ (s : State) (k : List Byte) (rest : List HostAct), s.pending = none →
    (k.length = 16 ∨ k.length = 24 ∨ k.length = 32) → s.script = asmLoadKey k ++ rest →
    ∃ key' : Vector Word 8,
      Host.Core.run Sys2Proof.core (k.length / 4) s = .next { s with script := rest, key := key' } ∧
      (∀ (i : Nat) (j : Fin 4), i < k.length / 4 → key'[i]?.map (byteAt j) = k[4 * i + j.val]?) ∧
      (∀ i, k.length / 4 ≤ i → key'[i]? = s.key[i]?)

/-- For every state, exec of SHIFTROWS answers a next state, and completing SHIFTROWS three more times from it
answers the first state with the completion fields of a success: STATE is restored (R36, R141, R146,
95_test_vectors.md V32; tier 1). -/
def Obligations.ShiftrowsFourTimesRestoresState : Prop :=
  ∀ s : State, ∃ t : State, exec .shiftrows s = .next t ∧
    execAll [.shiftrows, .shiftrows, .shiftrows] t = .next { s with pending := none, done := true, errcode := 0 }
end

