-- ==== Sys2Proof/Laws/Bytes.lean ====
section
/-! SUPPORT. The laws of the byte views: a word is its four bytes, a block its sixteen, and the bytes of a block
built by Block.ofBytes are the ones given. -/

namespace Sys2Proof.Machine

@[simp] theorem byteAt_zero_packWord (a b c d : Byte) : byteAt 0 (packWord a b c d) = a := by
  ext i hi
  simp only [byteAt, packWord, BitVec.getElem_extractLsb', BitVec.getLsbD_append]
  simp only [Fin.val_zero]
  rw [if_neg (by omega), if_neg (by omega), if_neg (by omega)]
  rw [show 24 - 8 * 0 + i - 8 - 8 - 8 = i by omega, BitVec.getLsbD_eq_getElem]

@[simp] theorem byteAt_one_packWord (a b c d : Byte) : byteAt 1 (packWord a b c d) = b := by
  ext i hi
  simp only [byteAt, packWord, BitVec.getElem_extractLsb', BitVec.getLsbD_append]
  simp only [Fin.val_one]
  rw [if_neg (by omega), if_neg (by omega), if_pos (by omega)]
  rw [show 24 - 8 * 1 + i - 8 - 8 = i by omega, BitVec.getLsbD_eq_getElem]

@[simp] theorem byteAt_two_packWord (a b c d : Byte) : byteAt 2 (packWord a b c d) = c := by
  ext i hi
  simp only [byteAt, packWord, BitVec.getElem_extractLsb', BitVec.getLsbD_append]
  simp only [Fin.val_two]
  rw [if_neg (by omega), if_pos (by omega)]
  rw [show 24 - 8 * 2 + i - 8 = i by omega, BitVec.getLsbD_eq_getElem]

@[simp] theorem byteAt_three_packWord (a b c d : Byte) : byteAt 3 (packWord a b c d) = d := by
  ext i hi
  simp only [byteAt, packWord, BitVec.getElem_extractLsb', BitVec.getLsbD_append]
  rw [show (3 : Fin 4).val = 3 from rfl, if_pos (by omega)]
  rw [show 24 - 8 * 3 + i = i by omega, BitVec.getLsbD_eq_getElem]

/-- A word is the packing of its four bytes (20_memory.md R52). -/
@[simp] theorem packWord_byteAt (w : Word) :
    packWord (byteAt 0 w) (byteAt 1 w) (byteAt 2 w) (byteAt 3 w) = w := by
  ext i hi
  rw [← BitVec.getLsbD_eq_getElem, ← BitVec.getLsbD_eq_getElem]
  simp only [byteAt, packWord, BitVec.getLsbD_append, BitVec.getLsbD_extractLsb', Fin.val_zero, Fin.val_one,
    Fin.val_two, show (3 : Fin 4).val = 3 from rfl]
  have at_byte : ∀ k j, j < 8 → k + j = i → (decide (j < 8) && w.getLsbD (k + j)) = w.getLsbD i := by
    intro k j hj hk
    rw [hk, decide_eq_true hj, Bool.true_and]
  split
  · exact at_byte _ _ (by omega) (by omega)
  · split
    · exact at_byte _ _ (by omega) (by omega)
    · split
      · exact at_byte _ _ (by omega) (by omega)
      · exact at_byte _ _ (by omega) (by omega)

/-- Two words with the same four bytes are equal. -/
theorem word_ext_bytes {v w : Word} (h : ∀ r : Fin 4, byteAt r v = byteAt r w) : v = w := by
  rw [← packWord_byteAt v, ← packWord_byteAt w, h 0, h 1, h 2, h 3]

/-- The bytes of a block built from bytes (10_state.md R23). -/
@[simp] theorem Block.byte_ofBytes (f : Fin 4 → Fin 4 → Byte) (r c : Fin 4) :
    (Block.ofBytes f).byte r c = f r c := by
  fin_cases r <;> fin_cases c <;> simp [Block.byte, Block.column, Block.ofBytes]

/-- Two blocks with the same sixteen bytes are equal. -/
theorem Block.ext_bytes {a b : Block} (h : ∀ r c, a.byte r c = b.byte r c) : a = b := by
  have hc : ∀ c, a.column c = b.column c := fun c => word_ext_bytes fun r => h r c
  cases a; cases b
  simpa [Block.column] using And.intro (hc 0) (And.intro (hc 1) (And.intro (hc 2) (hc 3)))

@[simp] theorem Block.column_setColumn_same (b : Block) (c : Fin 4) (v : Word) :
    (b.setColumn c v).column c = v := by
  fin_cases c <;> rfl

theorem Block.column_setColumn_other (b : Block) {c d : Fin 4} (v : Word) (h : d ≠ c) :
    (b.setColumn c v).column d = b.column d := by
  fin_cases c <;> fin_cases d <;> first | rfl | exact absurd rfl h

@[simp] theorem subBytes_byte (b : Block) (r c : Fin 4) : (subBytes b).byte r c = sbox (b.byte r c) := by
  simp [subBytes]

@[simp] theorem invSubBytes_byte (b : Block) (r c : Fin 4) :
    (invSubBytes b).byte r c = invSbox (b.byte r c) := by
  simp [invSubBytes]

@[simp] theorem shiftRows_byte (b : Block) (r c : Fin 4) : (shiftRows b).byte r c = b.byte r (c + r) := by
  simp [shiftRows]

@[simp] theorem invShiftRows_byte (b : Block) (r c : Fin 4) :
    (invShiftRows b).byte r c = b.byte r (c - r) := by
  simp [invShiftRows]

/-- A column of MixColumns. -/
@[simp] theorem mixColumns_column (b : Block) (c : Fin 4) :
    (mixColumns b).column c = mixColumn (b.byte 0 c) (b.byte 1 c) (b.byte 2 c) (b.byte 3 c) := by
  fin_cases c <;> rfl

/-- A column of InvMixColumns. -/
@[simp] theorem invMixColumns_column (b : Block) (c : Fin 4) :
    (invMixColumns b).column c = invMixColumn (b.byte 0 c) (b.byte 1 c) (b.byte 2 c) (b.byte 3 c) := by
  fin_cases c <;> rfl

/-- A column of AddRoundKey. -/
@[simp] theorem addRoundKey_column (k b : Block) (c : Fin 4) :
    (addRoundKey k b).column c = b.column c ^^^ k.column c := by
  fin_cases c <;> rfl

/-- AddRoundKey twice with one Round Key restores the block. -/
@[simp] theorem addRoundKey_addRoundKey (k b : Block) : addRoundKey k (addRoundKey k b) = b := by
  cases b; simp [addRoundKey]

end Sys2Proof.Machine
end

