-- ==== Sys2Proof/Laws/State.lean ====
section
/-! SUPPORT. What each update of State leaves in each field: one lemma for each update and field, true by
definition, so that no proof unfolds a record update. -/

namespace Sys2Proof.Machine

/-! ### setResult: RESULT <- v -/

@[simp] theorem State.setResult_cmdreg (v : Word) (s : State) :
    (s.setResult v).cmdreg = s.cmdreg := rfl
@[simp] theorem State.setResult_pending (v : Word) (s : State) :
    (s.setResult v).pending = s.pending := rfl
@[simp] theorem State.setResult_done (v : Word) (s : State) :
    (s.setResult v).done = s.done := rfl
@[simp] theorem State.setResult_err (v : Word) (s : State) :
    (s.setResult v).err = s.err := rfl
@[simp] theorem State.setResult_ovr (v : Word) (s : State) :
    (s.setResult v).ovr = s.ovr := rfl
@[simp] theorem State.setResult_ksv (v : Word) (s : State) :
    (s.setResult v).ksv = s.ksv := rfl
@[simp] theorem State.setResult_errcode (v : Word) (s : State) :
    (s.setResult v).errcode = s.errcode := rfl
@[simp] theorem State.setResult_nk (v : Word) (s : State) :
    (s.setResult v).nk = s.nk := rfl
@[simp] theorem State.setResult_nr (v : Word) (s : State) :
    (s.setResult v).nr = s.nr := rfl
@[simp] theorem State.setResult_ie (v : Word) (s : State) :
    (s.setResult v).ie = s.ie := rfl
@[simp] theorem State.setResult_result (v : Word) (s : State) :
    (s.setResult v).result = v := rfl
@[simp] theorem State.setResult_state (v : Word) (s : State) :
    (s.setResult v).state = s.state := rfl
@[simp] theorem State.setResult_key (v : Word) (s : State) :
    (s.setResult v).key = s.key := rfl
@[simp] theorem State.setResult_rk (v : Word) (s : State) :
    (s.setResult v).rk = s.rk := rfl
@[simp] theorem State.setResult_script (v : Word) (s : State) :
    (s.setResult v).script = s.script := rfl
@[simp] theorem State.setResult_got (v : Word) (s : State) :
    (s.setResult v).got = s.got := rfl
@[simp] theorem State.setResult_lat (v : Word) (s : State) :
    (s.setResult v).lat = s.lat := rfl
@[simp] theorem State.setResult_delay (v : Word) (s : State) :
    (s.setResult v).delay = s.delay := rfl
@[simp] theorem State.setResult_draws (v : Word) (s : State) :
    (s.setResult v).draws = s.draws := rfl

/-! ### setState: STATE <- b -/

@[simp] theorem State.setState_cmdreg (b : Block) (s : State) :
    (s.setState b).cmdreg = s.cmdreg := rfl
@[simp] theorem State.setState_pending (b : Block) (s : State) :
    (s.setState b).pending = s.pending := rfl
@[simp] theorem State.setState_done (b : Block) (s : State) :
    (s.setState b).done = s.done := rfl
@[simp] theorem State.setState_err (b : Block) (s : State) :
    (s.setState b).err = s.err := rfl
@[simp] theorem State.setState_ovr (b : Block) (s : State) :
    (s.setState b).ovr = s.ovr := rfl
@[simp] theorem State.setState_ksv (b : Block) (s : State) :
    (s.setState b).ksv = s.ksv := rfl
@[simp] theorem State.setState_errcode (b : Block) (s : State) :
    (s.setState b).errcode = s.errcode := rfl
@[simp] theorem State.setState_nk (b : Block) (s : State) :
    (s.setState b).nk = s.nk := rfl
@[simp] theorem State.setState_nr (b : Block) (s : State) :
    (s.setState b).nr = s.nr := rfl
@[simp] theorem State.setState_ie (b : Block) (s : State) :
    (s.setState b).ie = s.ie := rfl
@[simp] theorem State.setState_result (b : Block) (s : State) :
    (s.setState b).result = s.result := rfl
@[simp] theorem State.setState_state (b : Block) (s : State) :
    (s.setState b).state = b := rfl
@[simp] theorem State.setState_key (b : Block) (s : State) :
    (s.setState b).key = s.key := rfl
@[simp] theorem State.setState_rk (b : Block) (s : State) :
    (s.setState b).rk = s.rk := rfl
@[simp] theorem State.setState_script (b : Block) (s : State) :
    (s.setState b).script = s.script := rfl
@[simp] theorem State.setState_got (b : Block) (s : State) :
    (s.setState b).got = s.got := rfl
@[simp] theorem State.setState_lat (b : Block) (s : State) :
    (s.setState b).lat = s.lat := rfl
@[simp] theorem State.setState_delay (b : Block) (s : State) :
    (s.setState b).delay = s.delay := rfl
@[simp] theorem State.setState_draws (b : Block) (s : State) :
    (s.setState b).draws = s.draws := rfl

/-! ### setSchedule: a successful EXPAND -/

@[simp] theorem State.setSchedule_cmdreg (nk nr : Nat) (ws : List Word) (s : State) :
    (s.setSchedule nk nr ws).cmdreg = s.cmdreg := rfl
@[simp] theorem State.setSchedule_pending (nk nr : Nat) (ws : List Word) (s : State) :
    (s.setSchedule nk nr ws).pending = s.pending := rfl
@[simp] theorem State.setSchedule_done (nk nr : Nat) (ws : List Word) (s : State) :
    (s.setSchedule nk nr ws).done = s.done := rfl
@[simp] theorem State.setSchedule_err (nk nr : Nat) (ws : List Word) (s : State) :
    (s.setSchedule nk nr ws).err = s.err := rfl
@[simp] theorem State.setSchedule_ovr (nk nr : Nat) (ws : List Word) (s : State) :
    (s.setSchedule nk nr ws).ovr = s.ovr := rfl
@[simp] theorem State.setSchedule_ksv (nk nr : Nat) (ws : List Word) (s : State) :
    (s.setSchedule nk nr ws).ksv = true := rfl
@[simp] theorem State.setSchedule_errcode (nk nr : Nat) (ws : List Word) (s : State) :
    (s.setSchedule nk nr ws).errcode = s.errcode := rfl
@[simp] theorem State.setSchedule_nk (nk nr : Nat) (ws : List Word) (s : State) :
    (s.setSchedule nk nr ws).nk = BitVec.ofNat 4 nk := rfl
@[simp] theorem State.setSchedule_nr (nk nr : Nat) (ws : List Word) (s : State) :
    (s.setSchedule nk nr ws).nr = BitVec.ofNat 4 nr := rfl
@[simp] theorem State.setSchedule_ie (nk nr : Nat) (ws : List Word) (s : State) :
    (s.setSchedule nk nr ws).ie = s.ie := rfl
@[simp] theorem State.setSchedule_result (nk nr : Nat) (ws : List Word) (s : State) :
    (s.setSchedule nk nr ws).result = s.result := rfl
@[simp] theorem State.setSchedule_state (nk nr : Nat) (ws : List Word) (s : State) :
    (s.setSchedule nk nr ws).state = s.state := rfl
@[simp] theorem State.setSchedule_key (nk nr : Nat) (ws : List Word) (s : State) :
    (s.setSchedule nk nr ws).key = s.key := rfl
@[simp] theorem State.setSchedule_rk (nk nr : Nat) (ws : List Word) (s : State) :
    (s.setSchedule nk nr ws).rk = overwriteRk ws s.rk := rfl
@[simp] theorem State.setSchedule_script (nk nr : Nat) (ws : List Word) (s : State) :
    (s.setSchedule nk nr ws).script = s.script := rfl
@[simp] theorem State.setSchedule_got (nk nr : Nat) (ws : List Word) (s : State) :
    (s.setSchedule nk nr ws).got = s.got := rfl
@[simp] theorem State.setSchedule_lat (nk nr : Nat) (ws : List Word) (s : State) :
    (s.setSchedule nk nr ws).lat = s.lat := rfl
@[simp] theorem State.setSchedule_delay (nk nr : Nat) (ws : List Word) (s : State) :
    (s.setSchedule nk nr ws).delay = s.delay := rfl
@[simp] theorem State.setSchedule_draws (nk nr : Nat) (ws : List Word) (s : State) :
    (s.setSchedule nk nr ws).draws = s.draws := rfl

/-! ### completed: completion without error -/

@[simp] theorem State.completed_cmdreg (s : State) :
    (s.completed).cmdreg = s.cmdreg := rfl
@[simp] theorem State.completed_pending (s : State) :
    (s.completed).pending = none := rfl
@[simp] theorem State.completed_done (s : State) :
    (s.completed).done = true := rfl
@[simp] theorem State.completed_err (s : State) :
    (s.completed).err = s.err := rfl
@[simp] theorem State.completed_ovr (s : State) :
    (s.completed).ovr = s.ovr := rfl
@[simp] theorem State.completed_ksv (s : State) :
    (s.completed).ksv = s.ksv := rfl
@[simp] theorem State.completed_errcode (s : State) :
    (s.completed).errcode = 0 := rfl
@[simp] theorem State.completed_nk (s : State) :
    (s.completed).nk = s.nk := rfl
@[simp] theorem State.completed_nr (s : State) :
    (s.completed).nr = s.nr := rfl
@[simp] theorem State.completed_ie (s : State) :
    (s.completed).ie = s.ie := rfl
@[simp] theorem State.completed_result (s : State) :
    (s.completed).result = s.result := rfl
@[simp] theorem State.completed_state (s : State) :
    (s.completed).state = s.state := rfl
@[simp] theorem State.completed_key (s : State) :
    (s.completed).key = s.key := rfl
@[simp] theorem State.completed_rk (s : State) :
    (s.completed).rk = s.rk := rfl
@[simp] theorem State.completed_script (s : State) :
    (s.completed).script = s.script := rfl
@[simp] theorem State.completed_got (s : State) :
    (s.completed).got = s.got := rfl
@[simp] theorem State.completed_lat (s : State) :
    (s.completed).lat = s.lat := rfl
@[simp] theorem State.completed_delay (s : State) :
    (s.completed).delay = s.delay := rfl
@[simp] theorem State.completed_draws (s : State) :
    (s.completed).draws = s.draws := rfl

/-! ### failed: completion with an error -/

@[simp] theorem State.failed_cmdreg (e : CmdError) (s : State) :
    (s.failed e).cmdreg = s.cmdreg := rfl
@[simp] theorem State.failed_pending (e : CmdError) (s : State) :
    (s.failed e).pending = none := rfl
@[simp] theorem State.failed_done (e : CmdError) (s : State) :
    (s.failed e).done = true := rfl
@[simp] theorem State.failed_err (e : CmdError) (s : State) :
    (s.failed e).err = true := rfl
@[simp] theorem State.failed_ovr (e : CmdError) (s : State) :
    (s.failed e).ovr = s.ovr := rfl
@[simp] theorem State.failed_ksv (e : CmdError) (s : State) :
    (s.failed e).ksv = s.ksv := rfl
@[simp] theorem State.failed_errcode (e : CmdError) (s : State) :
    (s.failed e).errcode = errorCode e := rfl
@[simp] theorem State.failed_nk (e : CmdError) (s : State) :
    (s.failed e).nk = s.nk := rfl
@[simp] theorem State.failed_nr (e : CmdError) (s : State) :
    (s.failed e).nr = s.nr := rfl
@[simp] theorem State.failed_ie (e : CmdError) (s : State) :
    (s.failed e).ie = s.ie := rfl
@[simp] theorem State.failed_result (e : CmdError) (s : State) :
    (s.failed e).result = s.result := rfl
@[simp] theorem State.failed_state (e : CmdError) (s : State) :
    (s.failed e).state = s.state := rfl
@[simp] theorem State.failed_key (e : CmdError) (s : State) :
    (s.failed e).key = s.key := rfl
@[simp] theorem State.failed_rk (e : CmdError) (s : State) :
    (s.failed e).rk = s.rk := rfl
@[simp] theorem State.failed_script (e : CmdError) (s : State) :
    (s.failed e).script = s.script := rfl
@[simp] theorem State.failed_got (e : CmdError) (s : State) :
    (s.failed e).got = s.got := rfl
@[simp] theorem State.failed_lat (e : CmdError) (s : State) :
    (s.failed e).lat = s.lat := rfl
@[simp] theorem State.failed_delay (e : CmdError) (s : State) :
    (s.failed e).delay = s.delay := rfl
@[simp] theorem State.failed_draws (e : CmdError) (s : State) :
    (s.failed e).draws = s.draws := rfl

/-! ### issue: an accepted CMD write -/

@[simp] theorem State.issue_cmdreg (v : Word) (s : State) :
    (s.issue v).cmdreg = v := rfl
@[simp] theorem State.issue_pending (v : Word) (s : State) :
    (s.issue v).pending = some v := rfl
@[simp] theorem State.issue_done (v : Word) (s : State) :
    (s.issue v).done = false := rfl
@[simp] theorem State.issue_err (v : Word) (s : State) :
    (s.issue v).err = s.err := rfl
@[simp] theorem State.issue_ovr (v : Word) (s : State) :
    (s.issue v).ovr = s.ovr := rfl
@[simp] theorem State.issue_ksv (v : Word) (s : State) :
    (s.issue v).ksv = s.ksv := rfl
@[simp] theorem State.issue_errcode (v : Word) (s : State) :
    (s.issue v).errcode = s.errcode := rfl
@[simp] theorem State.issue_nk (v : Word) (s : State) :
    (s.issue v).nk = s.nk := rfl
@[simp] theorem State.issue_nr (v : Word) (s : State) :
    (s.issue v).nr = s.nr := rfl
@[simp] theorem State.issue_ie (v : Word) (s : State) :
    (s.issue v).ie = s.ie := rfl
@[simp] theorem State.issue_result (v : Word) (s : State) :
    (s.issue v).result = s.result := rfl
@[simp] theorem State.issue_state (v : Word) (s : State) :
    (s.issue v).state = s.state := rfl
@[simp] theorem State.issue_key (v : Word) (s : State) :
    (s.issue v).key = s.key := rfl
@[simp] theorem State.issue_rk (v : Word) (s : State) :
    (s.issue v).rk = s.rk := rfl
@[simp] theorem State.issue_script (v : Word) (s : State) :
    (s.issue v).script = s.script := rfl
@[simp] theorem State.issue_got (v : Word) (s : State) :
    (s.issue v).got = s.got := rfl
@[simp] theorem State.issue_lat (v : Word) (s : State) :
    (s.issue v).lat = s.lat.tail := rfl
@[simp] theorem State.issue_delay (v : Word) (s : State) :
    (s.issue v).delay = s.nextLatency := rfl
@[simp] theorem State.issue_draws (v : Word) (s : State) :
    (s.issue v).draws = s.draws + 1 := rfl

/-! ### dropWrite: a dropped write -/

@[simp] theorem State.dropWrite_cmdreg (s : State) :
    (s.dropWrite).cmdreg = s.cmdreg := rfl
@[simp] theorem State.dropWrite_pending (s : State) :
    (s.dropWrite).pending = s.pending := rfl
@[simp] theorem State.dropWrite_done (s : State) :
    (s.dropWrite).done = s.done := rfl
@[simp] theorem State.dropWrite_err (s : State) :
    (s.dropWrite).err = s.err := rfl
@[simp] theorem State.dropWrite_ovr (s : State) :
    (s.dropWrite).ovr = true := rfl
@[simp] theorem State.dropWrite_ksv (s : State) :
    (s.dropWrite).ksv = s.ksv := rfl
@[simp] theorem State.dropWrite_errcode (s : State) :
    (s.dropWrite).errcode = s.errcode := rfl
@[simp] theorem State.dropWrite_nk (s : State) :
    (s.dropWrite).nk = s.nk := rfl
@[simp] theorem State.dropWrite_nr (s : State) :
    (s.dropWrite).nr = s.nr := rfl
@[simp] theorem State.dropWrite_ie (s : State) :
    (s.dropWrite).ie = s.ie := rfl
@[simp] theorem State.dropWrite_result (s : State) :
    (s.dropWrite).result = s.result := rfl
@[simp] theorem State.dropWrite_state (s : State) :
    (s.dropWrite).state = s.state := rfl
@[simp] theorem State.dropWrite_key (s : State) :
    (s.dropWrite).key = s.key := rfl
@[simp] theorem State.dropWrite_rk (s : State) :
    (s.dropWrite).rk = s.rk := rfl
@[simp] theorem State.dropWrite_script (s : State) :
    (s.dropWrite).script = s.script := rfl
@[simp] theorem State.dropWrite_got (s : State) :
    (s.dropWrite).got = s.got := rfl
@[simp] theorem State.dropWrite_lat (s : State) :
    (s.dropWrite).lat = s.lat := rfl
@[simp] theorem State.dropWrite_delay (s : State) :
    (s.dropWrite).delay = s.delay := rfl
@[simp] theorem State.dropWrite_draws (s : State) :
    (s.dropWrite).draws = s.draws := rfl

/-! ### setCtrl: a CTRL write -/

@[simp] theorem State.setCtrl_cmdreg (v : Word) (s : State) :
    (s.setCtrl v).cmdreg = s.cmdreg := rfl
@[simp] theorem State.setCtrl_pending (v : Word) (s : State) :
    (s.setCtrl v).pending = s.pending := rfl
@[simp] theorem State.setCtrl_done (v : Word) (s : State) :
    (s.setCtrl v).done = s.done := rfl
@[simp] theorem State.setCtrl_err (v : Word) (s : State) :
    (s.setCtrl v).err = s.err := rfl
@[simp] theorem State.setCtrl_ovr (v : Word) (s : State) :
    (s.setCtrl v).ovr = s.ovr := rfl
@[simp] theorem State.setCtrl_ksv (v : Word) (s : State) :
    (s.setCtrl v).ksv = s.ksv := rfl
@[simp] theorem State.setCtrl_errcode (v : Word) (s : State) :
    (s.setCtrl v).errcode = s.errcode := rfl
@[simp] theorem State.setCtrl_nk (v : Word) (s : State) :
    (s.setCtrl v).nk = s.nk := rfl
@[simp] theorem State.setCtrl_nr (v : Word) (s : State) :
    (s.setCtrl v).nr = s.nr := rfl
@[simp] theorem State.setCtrl_ie (v : Word) (s : State) :
    (s.setCtrl v).ie = v.getLsbD 0 := rfl
@[simp] theorem State.setCtrl_result (v : Word) (s : State) :
    (s.setCtrl v).result = s.result := rfl
@[simp] theorem State.setCtrl_state (v : Word) (s : State) :
    (s.setCtrl v).state = s.state := rfl
@[simp] theorem State.setCtrl_key (v : Word) (s : State) :
    (s.setCtrl v).key = s.key := rfl
@[simp] theorem State.setCtrl_rk (v : Word) (s : State) :
    (s.setCtrl v).rk = s.rk := rfl
@[simp] theorem State.setCtrl_script (v : Word) (s : State) :
    (s.setCtrl v).script = s.script := rfl
@[simp] theorem State.setCtrl_got (v : Word) (s : State) :
    (s.setCtrl v).got = s.got := rfl
@[simp] theorem State.setCtrl_lat (v : Word) (s : State) :
    (s.setCtrl v).lat = s.lat := rfl
@[simp] theorem State.setCtrl_delay (v : Word) (s : State) :
    (s.setCtrl v).delay = s.delay := rfl
@[simp] theorem State.setCtrl_draws (v : Word) (s : State) :
    (s.setCtrl v).draws = s.draws := rfl

/-! ### setStateWord: a STATE write -/

@[simp] theorem State.setStateWord_cmdreg (c : Fin 4) (v : Word) (s : State) :
    (s.setStateWord c v).cmdreg = s.cmdreg := rfl
@[simp] theorem State.setStateWord_pending (c : Fin 4) (v : Word) (s : State) :
    (s.setStateWord c v).pending = s.pending := rfl
@[simp] theorem State.setStateWord_done (c : Fin 4) (v : Word) (s : State) :
    (s.setStateWord c v).done = s.done := rfl
@[simp] theorem State.setStateWord_err (c : Fin 4) (v : Word) (s : State) :
    (s.setStateWord c v).err = s.err := rfl
@[simp] theorem State.setStateWord_ovr (c : Fin 4) (v : Word) (s : State) :
    (s.setStateWord c v).ovr = s.ovr := rfl
@[simp] theorem State.setStateWord_ksv (c : Fin 4) (v : Word) (s : State) :
    (s.setStateWord c v).ksv = s.ksv := rfl
@[simp] theorem State.setStateWord_errcode (c : Fin 4) (v : Word) (s : State) :
    (s.setStateWord c v).errcode = s.errcode := rfl
@[simp] theorem State.setStateWord_nk (c : Fin 4) (v : Word) (s : State) :
    (s.setStateWord c v).nk = s.nk := rfl
@[simp] theorem State.setStateWord_nr (c : Fin 4) (v : Word) (s : State) :
    (s.setStateWord c v).nr = s.nr := rfl
@[simp] theorem State.setStateWord_ie (c : Fin 4) (v : Word) (s : State) :
    (s.setStateWord c v).ie = s.ie := rfl
@[simp] theorem State.setStateWord_result (c : Fin 4) (v : Word) (s : State) :
    (s.setStateWord c v).result = s.result := rfl
@[simp] theorem State.setStateWord_state (c : Fin 4) (v : Word) (s : State) :
    (s.setStateWord c v).state = s.state.setColumn c v := rfl
@[simp] theorem State.setStateWord_key (c : Fin 4) (v : Word) (s : State) :
    (s.setStateWord c v).key = s.key := rfl
@[simp] theorem State.setStateWord_rk (c : Fin 4) (v : Word) (s : State) :
    (s.setStateWord c v).rk = s.rk := rfl
@[simp] theorem State.setStateWord_script (c : Fin 4) (v : Word) (s : State) :
    (s.setStateWord c v).script = s.script := rfl
@[simp] theorem State.setStateWord_got (c : Fin 4) (v : Word) (s : State) :
    (s.setStateWord c v).got = s.got := rfl
@[simp] theorem State.setStateWord_lat (c : Fin 4) (v : Word) (s : State) :
    (s.setStateWord c v).lat = s.lat := rfl
@[simp] theorem State.setStateWord_delay (c : Fin 4) (v : Word) (s : State) :
    (s.setStateWord c v).delay = s.delay := rfl
@[simp] theorem State.setStateWord_draws (c : Fin 4) (v : Word) (s : State) :
    (s.setStateWord c v).draws = s.draws := rfl

/-! ### setKeyWord: a KEY write -/

@[simp] theorem State.setKeyWord_cmdreg (i : Fin 8) (v : Word) (s : State) :
    (s.setKeyWord i v).cmdreg = s.cmdreg := rfl
@[simp] theorem State.setKeyWord_pending (i : Fin 8) (v : Word) (s : State) :
    (s.setKeyWord i v).pending = s.pending := rfl
@[simp] theorem State.setKeyWord_done (i : Fin 8) (v : Word) (s : State) :
    (s.setKeyWord i v).done = s.done := rfl
@[simp] theorem State.setKeyWord_err (i : Fin 8) (v : Word) (s : State) :
    (s.setKeyWord i v).err = s.err := rfl
@[simp] theorem State.setKeyWord_ovr (i : Fin 8) (v : Word) (s : State) :
    (s.setKeyWord i v).ovr = s.ovr := rfl
@[simp] theorem State.setKeyWord_ksv (i : Fin 8) (v : Word) (s : State) :
    (s.setKeyWord i v).ksv = s.ksv := rfl
@[simp] theorem State.setKeyWord_errcode (i : Fin 8) (v : Word) (s : State) :
    (s.setKeyWord i v).errcode = s.errcode := rfl
@[simp] theorem State.setKeyWord_nk (i : Fin 8) (v : Word) (s : State) :
    (s.setKeyWord i v).nk = s.nk := rfl
@[simp] theorem State.setKeyWord_nr (i : Fin 8) (v : Word) (s : State) :
    (s.setKeyWord i v).nr = s.nr := rfl
@[simp] theorem State.setKeyWord_ie (i : Fin 8) (v : Word) (s : State) :
    (s.setKeyWord i v).ie = s.ie := rfl
@[simp] theorem State.setKeyWord_result (i : Fin 8) (v : Word) (s : State) :
    (s.setKeyWord i v).result = s.result := rfl
@[simp] theorem State.setKeyWord_state (i : Fin 8) (v : Word) (s : State) :
    (s.setKeyWord i v).state = s.state := rfl
@[simp] theorem State.setKeyWord_key (i : Fin 8) (v : Word) (s : State) :
    (s.setKeyWord i v).key = s.key.set i v := rfl
@[simp] theorem State.setKeyWord_rk (i : Fin 8) (v : Word) (s : State) :
    (s.setKeyWord i v).rk = s.rk := rfl
@[simp] theorem State.setKeyWord_script (i : Fin 8) (v : Word) (s : State) :
    (s.setKeyWord i v).script = s.script := rfl
@[simp] theorem State.setKeyWord_got (i : Fin 8) (v : Word) (s : State) :
    (s.setKeyWord i v).got = s.got := rfl
@[simp] theorem State.setKeyWord_lat (i : Fin 8) (v : Word) (s : State) :
    (s.setKeyWord i v).lat = s.lat := rfl
@[simp] theorem State.setKeyWord_delay (i : Fin 8) (v : Word) (s : State) :
    (s.setKeyWord i v).delay = s.delay := rfl
@[simp] theorem State.setKeyWord_draws (i : Fin 8) (v : Word) (s : State) :
    (s.setKeyWord i v).draws = s.draws := rfl

/-! ### deliver: a host read -/

@[simp] theorem State.deliver_cmdreg (v : Word) (s : State) :
    (s.deliver v).cmdreg = s.cmdreg := rfl
@[simp] theorem State.deliver_pending (v : Word) (s : State) :
    (s.deliver v).pending = s.pending := rfl
@[simp] theorem State.deliver_done (v : Word) (s : State) :
    (s.deliver v).done = s.done := rfl
@[simp] theorem State.deliver_err (v : Word) (s : State) :
    (s.deliver v).err = s.err := rfl
@[simp] theorem State.deliver_ovr (v : Word) (s : State) :
    (s.deliver v).ovr = s.ovr := rfl
@[simp] theorem State.deliver_ksv (v : Word) (s : State) :
    (s.deliver v).ksv = s.ksv := rfl
@[simp] theorem State.deliver_errcode (v : Word) (s : State) :
    (s.deliver v).errcode = s.errcode := rfl
@[simp] theorem State.deliver_nk (v : Word) (s : State) :
    (s.deliver v).nk = s.nk := rfl
@[simp] theorem State.deliver_nr (v : Word) (s : State) :
    (s.deliver v).nr = s.nr := rfl
@[simp] theorem State.deliver_ie (v : Word) (s : State) :
    (s.deliver v).ie = s.ie := rfl
@[simp] theorem State.deliver_result (v : Word) (s : State) :
    (s.deliver v).result = s.result := rfl
@[simp] theorem State.deliver_state (v : Word) (s : State) :
    (s.deliver v).state = s.state := rfl
@[simp] theorem State.deliver_key (v : Word) (s : State) :
    (s.deliver v).key = s.key := rfl
@[simp] theorem State.deliver_rk (v : Word) (s : State) :
    (s.deliver v).rk = s.rk := rfl
@[simp] theorem State.deliver_script (v : Word) (s : State) :
    (s.deliver v).script = s.script := rfl
@[simp] theorem State.deliver_got (v : Word) (s : State) :
    (s.deliver v).got = v :: s.got := rfl
@[simp] theorem State.deliver_lat (v : Word) (s : State) :
    (s.deliver v).lat = s.lat := rfl
@[simp] theorem State.deliver_delay (v : Word) (s : State) :
    (s.deliver v).delay = s.delay := rfl
@[simp] theorem State.deliver_draws (v : Word) (s : State) :
    (s.deliver v).draws = s.draws := rfl

/-! ### deliverFree: a host read of a free value -/

@[simp] theorem State.deliverFree_cmdreg (s : State) :
    (s.deliverFree).cmdreg = s.cmdreg := rfl
@[simp] theorem State.deliverFree_pending (s : State) :
    (s.deliverFree).pending = s.pending := rfl
@[simp] theorem State.deliverFree_done (s : State) :
    (s.deliverFree).done = s.done := rfl
@[simp] theorem State.deliverFree_err (s : State) :
    (s.deliverFree).err = s.err := rfl
@[simp] theorem State.deliverFree_ovr (s : State) :
    (s.deliverFree).ovr = s.ovr := rfl
@[simp] theorem State.deliverFree_ksv (s : State) :
    (s.deliverFree).ksv = s.ksv := rfl
@[simp] theorem State.deliverFree_errcode (s : State) :
    (s.deliverFree).errcode = s.errcode := rfl
@[simp] theorem State.deliverFree_nk (s : State) :
    (s.deliverFree).nk = s.nk := rfl
@[simp] theorem State.deliverFree_nr (s : State) :
    (s.deliverFree).nr = s.nr := rfl
@[simp] theorem State.deliverFree_ie (s : State) :
    (s.deliverFree).ie = s.ie := rfl
@[simp] theorem State.deliverFree_result (s : State) :
    (s.deliverFree).result = s.result := rfl
@[simp] theorem State.deliverFree_state (s : State) :
    (s.deliverFree).state = s.state := rfl
@[simp] theorem State.deliverFree_key (s : State) :
    (s.deliverFree).key = s.key := rfl
@[simp] theorem State.deliverFree_rk (s : State) :
    (s.deliverFree).rk = s.rk := rfl
@[simp] theorem State.deliverFree_script (s : State) :
    (s.deliverFree).script = s.script := rfl
@[simp] theorem State.deliverFree_got (s : State) :
    (s.deliverFree).got = Config.freeWord s.draws :: s.got := rfl
@[simp] theorem State.deliverFree_lat (s : State) :
    (s.deliverFree).lat = s.lat := rfl
@[simp] theorem State.deliverFree_delay (s : State) :
    (s.deliverFree).delay = s.delay := rfl
@[simp] theorem State.deliverFree_draws (s : State) :
    (s.deliverFree).draws = s.draws + 1 := rfl

/-! ### ackStatus: a STATUS write -/

@[simp] theorem State.ackStatus_cmdreg (v : Word) (s : State) :
    (s.ackStatus v).cmdreg = s.cmdreg := rfl
@[simp] theorem State.ackStatus_pending (v : Word) (s : State) :
    (s.ackStatus v).pending = s.pending := rfl
@[simp] theorem State.ackStatus_done (v : Word) (s : State) :
    (s.ackStatus v).done = (s.done && !v.getLsbD 1) := rfl
@[simp] theorem State.ackStatus_err (v : Word) (s : State) :
    (s.ackStatus v).err = (s.err && !v.getLsbD 2) := rfl
@[simp] theorem State.ackStatus_ovr (v : Word) (s : State) :
    (s.ackStatus v).ovr = (s.ovr && !v.getLsbD 3) := rfl
@[simp] theorem State.ackStatus_ksv (v : Word) (s : State) :
    (s.ackStatus v).ksv = s.ksv := rfl
@[simp] theorem State.ackStatus_errcode (v : Word) (s : State) :
    (s.ackStatus v).errcode = s.errcode := rfl
@[simp] theorem State.ackStatus_nk (v : Word) (s : State) :
    (s.ackStatus v).nk = s.nk := rfl
@[simp] theorem State.ackStatus_nr (v : Word) (s : State) :
    (s.ackStatus v).nr = s.nr := rfl
@[simp] theorem State.ackStatus_ie (v : Word) (s : State) :
    (s.ackStatus v).ie = s.ie := rfl
@[simp] theorem State.ackStatus_result (v : Word) (s : State) :
    (s.ackStatus v).result = s.result := rfl
@[simp] theorem State.ackStatus_state (v : Word) (s : State) :
    (s.ackStatus v).state = s.state := rfl
@[simp] theorem State.ackStatus_key (v : Word) (s : State) :
    (s.ackStatus v).key = s.key := rfl
@[simp] theorem State.ackStatus_rk (v : Word) (s : State) :
    (s.ackStatus v).rk = s.rk := rfl
@[simp] theorem State.ackStatus_script (v : Word) (s : State) :
    (s.ackStatus v).script = s.script := rfl
@[simp] theorem State.ackStatus_got (v : Word) (s : State) :
    (s.ackStatus v).got = s.got := rfl
@[simp] theorem State.ackStatus_lat (v : Word) (s : State) :
    (s.ackStatus v).lat = s.lat := rfl
@[simp] theorem State.ackStatus_delay (v : Word) (s : State) :
    (s.ackStatus v).delay = s.delay := rfl
@[simp] theorem State.ackStatus_draws (v : Word) (s : State) :
    (s.ackStatus v).draws = s.draws := rfl

/-! ### withCommand: a command due at the next step -/

@[simp] theorem State.withCommand_cmdreg (v : Word) (s : State) :
    (s.withCommand v).cmdreg = v := rfl
@[simp] theorem State.withCommand_pending (v : Word) (s : State) :
    (s.withCommand v).pending = some v := rfl
@[simp] theorem State.withCommand_done (v : Word) (s : State) :
    (s.withCommand v).done = false := rfl
@[simp] theorem State.withCommand_err (v : Word) (s : State) :
    (s.withCommand v).err = s.err := rfl
@[simp] theorem State.withCommand_ovr (v : Word) (s : State) :
    (s.withCommand v).ovr = s.ovr := rfl
@[simp] theorem State.withCommand_ksv (v : Word) (s : State) :
    (s.withCommand v).ksv = s.ksv := rfl
@[simp] theorem State.withCommand_errcode (v : Word) (s : State) :
    (s.withCommand v).errcode = s.errcode := rfl
@[simp] theorem State.withCommand_nk (v : Word) (s : State) :
    (s.withCommand v).nk = s.nk := rfl
@[simp] theorem State.withCommand_nr (v : Word) (s : State) :
    (s.withCommand v).nr = s.nr := rfl
@[simp] theorem State.withCommand_ie (v : Word) (s : State) :
    (s.withCommand v).ie = s.ie := rfl
@[simp] theorem State.withCommand_result (v : Word) (s : State) :
    (s.withCommand v).result = s.result := rfl
@[simp] theorem State.withCommand_state (v : Word) (s : State) :
    (s.withCommand v).state = s.state := rfl
@[simp] theorem State.withCommand_key (v : Word) (s : State) :
    (s.withCommand v).key = s.key := rfl
@[simp] theorem State.withCommand_rk (v : Word) (s : State) :
    (s.withCommand v).rk = s.rk := rfl
@[simp] theorem State.withCommand_script (v : Word) (s : State) :
    (s.withCommand v).script = s.script := rfl
@[simp] theorem State.withCommand_got (v : Word) (s : State) :
    (s.withCommand v).got = s.got := rfl
@[simp] theorem State.withCommand_lat (v : Word) (s : State) :
    (s.withCommand v).lat = s.lat := rfl
@[simp] theorem State.withCommand_delay (v : Word) (s : State) :
    (s.withCommand v).delay = 0 := rfl
@[simp] theorem State.withCommand_draws (v : Word) (s : State) :
    (s.withCommand v).draws = s.draws := rfl

/-! ### pinReset: the reset event -/

@[simp] theorem State.pinReset_cmdreg (s : State) :
    (s.pinReset).cmdreg = 0 := rfl
@[simp] theorem State.pinReset_pending (s : State) :
    (s.pinReset).pending = none := rfl
@[simp] theorem State.pinReset_done (s : State) :
    (s.pinReset).done = false := rfl
@[simp] theorem State.pinReset_err (s : State) :
    (s.pinReset).err = false := rfl
@[simp] theorem State.pinReset_ovr (s : State) :
    (s.pinReset).ovr = false := rfl
@[simp] theorem State.pinReset_ksv (s : State) :
    (s.pinReset).ksv = false := rfl
@[simp] theorem State.pinReset_errcode (s : State) :
    (s.pinReset).errcode = 0 := rfl
@[simp] theorem State.pinReset_nk (s : State) :
    (s.pinReset).nk = 0 := rfl
@[simp] theorem State.pinReset_nr (s : State) :
    (s.pinReset).nr = 0 := rfl
@[simp] theorem State.pinReset_ie (s : State) :
    (s.pinReset).ie = false := rfl
@[simp] theorem State.pinReset_result (s : State) :
    (s.pinReset).result = 0 := rfl
@[simp] theorem State.pinReset_state (s : State) :
    (s.pinReset).state = (State.afterReset s.draws).state := rfl
@[simp] theorem State.pinReset_key (s : State) :
    (s.pinReset).key = (State.afterReset s.draws).key := rfl
@[simp] theorem State.pinReset_rk (s : State) :
    (s.pinReset).rk = (State.afterReset s.draws).rk := rfl
@[simp] theorem State.pinReset_script (s : State) :
    (s.pinReset).script = s.script := rfl
@[simp] theorem State.pinReset_got (s : State) :
    (s.pinReset).got = s.got := rfl
@[simp] theorem State.pinReset_lat (s : State) :
    (s.pinReset).lat = s.lat := rfl
@[simp] theorem State.pinReset_delay (s : State) :
    (s.pinReset).delay = 0 := rfl
@[simp] theorem State.pinReset_draws (s : State) :
    (s.pinReset).draws = s.draws + 72 := rfl

/-! ### setScript: the host moves on -/

@[simp] theorem State.setScript_cmdreg (rest : List HostAct) (s : State) :
    (s.setScript rest).cmdreg = s.cmdreg := rfl
@[simp] theorem State.setScript_pending (rest : List HostAct) (s : State) :
    (s.setScript rest).pending = s.pending := rfl
@[simp] theorem State.setScript_done (rest : List HostAct) (s : State) :
    (s.setScript rest).done = s.done := rfl
@[simp] theorem State.setScript_err (rest : List HostAct) (s : State) :
    (s.setScript rest).err = s.err := rfl
@[simp] theorem State.setScript_ovr (rest : List HostAct) (s : State) :
    (s.setScript rest).ovr = s.ovr := rfl
@[simp] theorem State.setScript_ksv (rest : List HostAct) (s : State) :
    (s.setScript rest).ksv = s.ksv := rfl
@[simp] theorem State.setScript_errcode (rest : List HostAct) (s : State) :
    (s.setScript rest).errcode = s.errcode := rfl
@[simp] theorem State.setScript_nk (rest : List HostAct) (s : State) :
    (s.setScript rest).nk = s.nk := rfl
@[simp] theorem State.setScript_nr (rest : List HostAct) (s : State) :
    (s.setScript rest).nr = s.nr := rfl
@[simp] theorem State.setScript_ie (rest : List HostAct) (s : State) :
    (s.setScript rest).ie = s.ie := rfl
@[simp] theorem State.setScript_result (rest : List HostAct) (s : State) :
    (s.setScript rest).result = s.result := rfl
@[simp] theorem State.setScript_state (rest : List HostAct) (s : State) :
    (s.setScript rest).state = s.state := rfl
@[simp] theorem State.setScript_key (rest : List HostAct) (s : State) :
    (s.setScript rest).key = s.key := rfl
@[simp] theorem State.setScript_rk (rest : List HostAct) (s : State) :
    (s.setScript rest).rk = s.rk := rfl
@[simp] theorem State.setScript_script (rest : List HostAct) (s : State) :
    (s.setScript rest).script = rest := rfl
@[simp] theorem State.setScript_got (rest : List HostAct) (s : State) :
    (s.setScript rest).got = s.got := rfl
@[simp] theorem State.setScript_lat (rest : List HostAct) (s : State) :
    (s.setScript rest).lat = s.lat := rfl
@[simp] theorem State.setScript_delay (rest : List HostAct) (s : State) :
    (s.setScript rest).delay = s.delay := rfl
@[simp] theorem State.setScript_draws (rest : List HostAct) (s : State) :
    (s.setScript rest).draws = s.draws := rfl

/-! ### setDelay: a step of LAT passes -/

@[simp] theorem State.setDelay_cmdreg (d : Nat) (s : State) :
    (s.setDelay d).cmdreg = s.cmdreg := rfl
@[simp] theorem State.setDelay_pending (d : Nat) (s : State) :
    (s.setDelay d).pending = s.pending := rfl
@[simp] theorem State.setDelay_done (d : Nat) (s : State) :
    (s.setDelay d).done = s.done := rfl
@[simp] theorem State.setDelay_err (d : Nat) (s : State) :
    (s.setDelay d).err = s.err := rfl
@[simp] theorem State.setDelay_ovr (d : Nat) (s : State) :
    (s.setDelay d).ovr = s.ovr := rfl
@[simp] theorem State.setDelay_ksv (d : Nat) (s : State) :
    (s.setDelay d).ksv = s.ksv := rfl
@[simp] theorem State.setDelay_errcode (d : Nat) (s : State) :
    (s.setDelay d).errcode = s.errcode := rfl
@[simp] theorem State.setDelay_nk (d : Nat) (s : State) :
    (s.setDelay d).nk = s.nk := rfl
@[simp] theorem State.setDelay_nr (d : Nat) (s : State) :
    (s.setDelay d).nr = s.nr := rfl
@[simp] theorem State.setDelay_ie (d : Nat) (s : State) :
    (s.setDelay d).ie = s.ie := rfl
@[simp] theorem State.setDelay_result (d : Nat) (s : State) :
    (s.setDelay d).result = s.result := rfl
@[simp] theorem State.setDelay_state (d : Nat) (s : State) :
    (s.setDelay d).state = s.state := rfl
@[simp] theorem State.setDelay_key (d : Nat) (s : State) :
    (s.setDelay d).key = s.key := rfl
@[simp] theorem State.setDelay_rk (d : Nat) (s : State) :
    (s.setDelay d).rk = s.rk := rfl
@[simp] theorem State.setDelay_script (d : Nat) (s : State) :
    (s.setDelay d).script = s.script := rfl
@[simp] theorem State.setDelay_got (d : Nat) (s : State) :
    (s.setDelay d).got = s.got := rfl
@[simp] theorem State.setDelay_lat (d : Nat) (s : State) :
    (s.setDelay d).lat = s.lat := rfl
@[simp] theorem State.setDelay_delay (d : Nat) (s : State) :
    (s.setDelay d).delay = d := rfl
@[simp] theorem State.setDelay_draws (d : Nat) (s : State) :
    (s.setDelay d).draws = s.draws := rfl

end Sys2Proof.Machine
end

