-- ==== Sys2Proof/Laws/Ops.lean ====
section
/-! SUPPORT. What each shared operation can do, said once: the proofs cite these lemmas instead of unfolding. -/

namespace Sys2Proof.Machine

/-! ### BUSY -/

@[simp] theorem State.busy_eq_true (s : State) : s.busy = true ↔ ∃ v, s.pending = some v := by
  simp [State.busy, Option.isSome_iff_exists]

@[simp] theorem State.busy_eq_false (s : State) : s.busy = false ↔ s.pending = none := by
  simp [State.busy]

/-! ### The ends of a command -/

theorem succeed_eq (s : State) : succeed s = .next s.completed := rfl

theorem raiseError_eq (e : CmdError) (s : State) : raiseError e s = .next (s.failed e) := rfl

theorem withSchedule_no_schedule {s : State} (h : s.ksv = false) (body : Outcome) :
    withSchedule s body = .next (s.failed .noSchedule) := by
  simp [withSchedule, h, raiseError]

theorem withSchedule_schedule {s : State} (h : s.ksv = true) (hf : s.scheduleFits = true) (body : Outcome) :
    withSchedule s body = body := by
  simp [withSchedule, h, hf]

/-- Everything the schedule check can answer. -/
theorem withSchedule_cases (s : State) (body : Outcome) :
    (s.ksv = false ∧ withSchedule s body = .next (s.failed .noSchedule)) ∨
    (s.ksv = true ∧ s.scheduleFits = false ∧ withSchedule s body = .fault .scheduleOutsideRam) ∨
    (s.ksv = true ∧ s.scheduleFits = true ∧ withSchedule s body = body) := by
  cases hk : s.ksv <;> cases hf : s.scheduleFits <;> simp [withSchedule, hk, hf, raiseError]

/-- The supported pairs, as a list (60_exceptions.md R183). -/
theorem supportedKey_iff (nk nr : Nat) :
    supportedKey nk nr = true ↔ (nk, nr) ∈ [(4, 10), (6, 12), (8, 14)] := by
  simp [supportedKey, or_assoc]

theorem supportedKey_eq_false_iff (nk nr : Nat) :
    supportedKey nk nr = false ↔ (nk, nr) ∉ [(4, 10), (6, 12), (8, 14)] := by
  rw [← supportedKey_iff, Bool.not_eq_true]

@[simp] theorem State.scheduleFits_eq_true (s : State) : s.scheduleFits = true ↔ s.scheduleWords ≤ 60 := by
  simp [State.scheduleFits]

/-- A sound state with a schedule has a supported pair in NK and NR (10_state.md R26, R27). -/
theorem State.supportedKey_of_sound {s : State} (h : s.sound = true) (hk : s.ksv = true) :
    supportedKey s.nk.toNat s.nr.toNat = true := by
  simp only [State.sound, hk, if_true, Bool.and_eq_true] at h
  exact h.1.2

/-- A sound state with a schedule has it in the RAM (log entry 7). -/
theorem State.scheduleFits_of_sound {s : State} (h : s.sound = true) (hk : s.ksv = true) :
    s.scheduleFits = true := by
  have hs := State.supportedKey_of_sound h hk
  simp only [supportedKey, Bool.or_eq_true, Bool.and_eq_true, beq_iff_eq] at hs
  simp only [State.scheduleFits_eq_true, State.scheduleWords]
  omega

/-! ### The round-key RAM -/

theorem overwriteRk_getElem (ws : List Word) (rk : Vector Word 60) (i : Nat) (hi : i < 60) :
    (overwriteRk ws rk)[i] = ws.getD i rk[i] := by
  simp [overwriteRk]

theorem State.rkWord_eq (s : State) {i : Nat} (hi : i < 60) : s.rkWord i = s.rk[i] := by
  simp [State.rkWord, hi]

theorem expandLoop_length (nk n : Nat) (w : List Word) (rc : Byte) :
    (expandLoop nk n w rc).length = w.length + n := by
  induction n generalizing w rc with
  | zero => simp [expandLoop]
  | succ n ih => simp [expandLoop, ih]; omega

/-- Expand makes 4·(nr+1) words (42_key_schedule.md R123). -/
theorem expandKey_length {nk nr : Nat} (h : supportedKey nk nr = true) (key : Vector Word 8) :
    (expandKey nk nr key).length = 4 * (nr + 1) := by
  simp only [supportedKey, Bool.or_eq_true, Bool.and_eq_true, beq_iff_eq] at h
  simp only [expandKey, expandLoop_length, List.length_take, Vector.length_toList]
  omega

/-! ### Completion of a command -/

/-- Everything exec can answer: a stop in a state no run reaches, an error, or a success that has written RESULT,
STATE or the schedule and nothing else. -/
theorem exec_cases (i : Instr) (s : State) :
    (s.ksv = true ∧ s.scheduleFits = false ∧ exec i s = .fault .scheduleOutsideRam) ∨
    (∃ e, exec i s = .next (s.failed e)) ∨
    (∃ v, exec i s = .next (s.setResult v).completed) ∨
    (∃ b, exec i s = .next (s.setState b).completed) ∨
    (∃ nk nr, i = .expand nk nr ∧ supportedKey nk nr = true ∧
      exec i s = .next (s.setSchedule nk nr (expandKey nk nr s.key)).completed) := by
  have result : ∀ v, succeed (s.setResult v) = .next (s.setResult v).completed := fun _ => rfl
  have state : ∀ b, succeed (s.setState b) = .next (s.setState b).completed := fun _ => rfl
  have sched : ∀ body : Outcome,
      (∃ e, body = .next (s.failed e)) ∨ (∃ v, body = .next (s.setResult v).completed) ∨
        (∃ b, body = .next (s.setState b).completed) →
      (s.ksv = true ∧ s.scheduleFits = false ∧ withSchedule s body = .fault .scheduleOutsideRam) ∨
      (∃ e, withSchedule s body = .next (s.failed e)) ∨
      (∃ v, withSchedule s body = .next (s.setResult v).completed) ∨
      (∃ b, withSchedule s body = .next (s.setState b).completed) := by
    intro body hb
    rcases withSchedule_cases s body with ⟨_, h⟩ | ⟨hk, hf, h⟩ | ⟨_, _, h⟩
    · exact .inr (.inl ⟨_, h⟩)
    · exact .inl ⟨hk, hf, h⟩
    · rw [h]; exact .inr hb
  cases i with
  | sbox x => exact .inr (.inr (.inl ⟨_, rfl⟩))
  | invsbox y => exact .inr (.inr (.inl ⟨_, rfl⟩))
  | ginv x => exact .inr (.inr (.inl ⟨_, rfl⟩))
  | mulc x m =>
    cases hm : mulRom m with
    | none => exact .inr (.inl ⟨.badConstant, by simp [exec, execMulc, hm, raiseError]⟩)
    | some t => exact .inr (.inr (.inl ⟨(romRead t x).setWidth 32, by simp [exec, execMulc, hm, tableResult, succeed]⟩))
  | expand nk nr =>
    cases hk : supportedKey nk nr with
    | false => exact .inr (.inl ⟨.invalidParam, by simp [exec, execExpand, hk, raiseError]⟩)
    | true => exact .inr (.inr (.inr (.inr ⟨nk, nr, rfl, hk, by simp [exec, execExpand, hk, succeed]⟩)))
  | rkread n =>
    have := sched (if n ≥ s.scheduleWords then raiseError .range s else succeed (s.setResult (s.rkWord n))) (by
      by_cases h : n ≥ s.scheduleWords
      · exact .inl ⟨.range, by simp [h, raiseError]⟩
      · exact .inr (.inl ⟨_, by rw [if_neg h, result]⟩))
    rcases this with h | h | h | h
    · exact .inl h
    · exact .inr (.inl h)
    · exact .inr (.inr (.inl h))
    · exact .inr (.inr (.inr (.inl h)))
  | addrk r =>
    have := sched (if r > s.nr.toNat then raiseError .range s
        else succeed (s.setState (addRoundKey (s.roundKey r) s.state))) (by
      by_cases h : r > s.nr.toNat
      · exact .inl ⟨.range, by simp [h, raiseError]⟩
      · exact .inr (.inr ⟨_, by rw [if_neg h, state]⟩))
    rcases this with h | h | h | h
    · exact .inl h
    · exact .inr (.inl h)
    · exact .inr (.inr (.inl h))
    · exact .inr (.inr (.inr (.inl h)))
  | encrypt =>
    rcases sched _ (.inr (.inr ⟨_, state (cipher s.roundKey s.nr.toNat s.state)⟩)) with h | h | h | h
    · exact .inl h
    · exact .inr (.inl h)
    · exact .inr (.inr (.inl h))
    · exact .inr (.inr (.inr (.inl h)))
  | decrypt =>
    rcases sched _ (.inr (.inr ⟨_, state (invCipher s.roundKey s.nr.toNat s.state)⟩)) with h | h | h | h
    · exact .inl h
    · exact .inr (.inl h)
    · exact .inr (.inr (.inl h))
    · exact .inr (.inr (.inr (.inl h)))
  | subbytes => exact .inr (.inr (.inr (.inl ⟨_, rfl⟩)))
  | shiftrows => exact .inr (.inr (.inr (.inl ⟨_, rfl⟩)))
  | mixcolumns => exact .inr (.inr (.inr (.inl ⟨_, rfl⟩)))
  | invsubbytes => exact .inr (.inr (.inr (.inl ⟨_, rfl⟩)))
  | invshiftrows => exact .inr (.inr (.inr (.inl ⟨_, rfl⟩)))
  | invmixcolumns => exact .inr (.inr (.inr (.inl ⟨_, rfl⟩)))

/-! ### Whose turn it is -/

/-- With nothing pending the host has its turn. -/
theorem step_of_idle {s : State} (h : s.pending = none) : step s = hostTurn s := by
  simp [step, turn, h]

/-- While a delay is left, one step of it passes and the host has its turn. -/
theorem step_of_delay {s : State} {v : Word} {d : Nat} (h : s.pending = some v) (hd : s.delay = d + 1) :
    step s = hostTurn (s.setDelay d) := by
  simp [step, turn, h, hd]

/-- With no delay left the core completes the pending command. -/
theorem step_of_due {s : State} {v : Word} (h : s.pending = some v) (hd : s.delay = 0) :
    step s = completeCommand v s := by
  simp [step, turn, h, hd]

/-- Everything a step can be. -/
theorem step_cases (s : State) :
    (s.pending = none ∧ step s = hostTurn s) ∨
    (∃ v d, s.pending = some v ∧ s.delay = d + 1 ∧ step s = hostTurn (s.setDelay d)) ∨
    (∃ v, s.pending = some v ∧ s.delay = 0 ∧ step s = completeCommand v s) := by
  cases hp : s.pending with
  | none => exact .inl ⟨rfl, step_of_idle hp⟩
  | some v =>
    cases hd : s.delay with
    | zero => exact .inr (.inr ⟨v, rfl, rfl, step_of_due hp hd⟩)
    | succ d => exact .inr (.inl ⟨v, d, rfl, rfl, step_of_delay hp hd⟩)

/-- Everything the host's turn can be. -/
theorem hostTurn_cases (s : State) :
    (s.script = [] ∧ hostTurn s = .next s) ∨
    (∃ a rest, s.script = a :: rest ∧ hostTurn s = hostAct a (s.setScript rest)) := by
  cases h : s.script with
  | nil => exact .inl ⟨rfl, by simp [hostTurn, h]⟩
  | cons a rest => exact .inr ⟨a, rest, rfl, by simp [hostTurn, h]⟩

/-- A completion answers a next state, or stops in a state no run reaches. -/
theorem completeCommand_cases (v : Word) (s : State) :
    (∃ i, decode v = .ok i ∧ completeCommand v s = exec i s) ∨
    (∃ e, decode v = .error e ∧ completeCommand v s = .next (s.failed e)) := by
  cases h : decode v with
  | ok i => exact .inl ⟨i, rfl, by simp [completeCommand, h]⟩
  | error e => exact .inr ⟨e, rfl, by simp [completeCommand, h, raiseError]⟩

/-- Everything one host access can do to the state: deliver a value, issue a command, drop a write, write one
register, acknowledge, wait on, or reset. The script is what follows, but for a wait that goes on. -/
theorem hostAct_cases (a : HostAct) (s : State) :
    (∃ off, (a = .read off ∨ ∃ v, a = .write off v) ∧ hostRegAt off = none ∧
      hostAct a s = .refused .misalignedAccess) ∨
    (∃ off v, a = .read off ∧ hostAct a s = .next (s.deliver v)) ∨
    (∃ off, a = .read off ∧ hostAct a s = .next s.deliverFree) ∨
    (∃ off v r, a = .write off v ∧ hostRegAt off = some r ∧ hostAct a s = .next (writeReg r v s)) ∨
    (a = .wait ∧ hostAct a s = .next (pollStatus s)) ∨
    (a = .waitIrq ∧ hostAct a s = .next (pollIrq s)) ∨
    (a = .reset ∧ hostAct a s = .next s.pinReset) := by
  cases a with
  | read off =>
    cases h : hostRegAt off with
    | none => exact .inl ⟨off, .inl rfl, h, by simp [hostAct, busRead, h]⟩
    | some r =>
      cases hb : (s.busy && unstableWhileBusy r) with
      | false => exact .inr (.inl ⟨off, readReg r s, rfl, by simp [hostAct, busRead, h, hb]⟩)
      | true => exact .inr (.inr (.inl ⟨off, rfl, by simp [hostAct, busRead, h, hb]⟩))
  | write off v =>
    cases h : hostRegAt off with
    | none => exact .inl ⟨off, .inr ⟨v, rfl⟩, h, by simp [hostAct, busWrite, h]⟩
    | some r => exact .inr (.inr (.inr (.inl ⟨off, v, r, rfl, h, by simp [hostAct, busWrite, h]⟩)))
  | wait => exact .inr (.inr (.inr (.inr (.inl ⟨rfl, rfl⟩))))
  | waitIrq => exact .inr (.inr (.inr (.inr (.inr (.inl ⟨rfl, rfl⟩)))))
  | reset => exact .inr (.inr (.inr (.inr (.inr (.inr ⟨rfl, rfl⟩)))))

/-- Everything a register write can do (20_memory.md R58, R59). -/
theorem writeReg_cases (r : HostReg) (v : Word) (s : State) :
    (∃ w, s.pending = some w ∧ writeReg r v s = s.dropWrite) ∨
    (r = .cmd ∧ s.pending = none ∧ writeReg r v s = s.issue v) ∨
    (r = .status ∧ writeReg r v s = s.ackStatus v) ∨
    (r = .ctrl ∧ writeReg r v s = s.setCtrl v) ∨
    (∃ c, r = .state c ∧ s.pending = none ∧ writeReg r v s = s.setStateWord c v) ∨
    (∃ i, r = .key i ∧ s.pending = none ∧ writeReg r v s = s.setKeyWord i v) ∨
    ((r = .result ∨ r = .reserved) ∧ writeReg r v s = s) := by
  cases r <;> cases hp : s.pending <;> simp [writeReg, unlessBusy, State.busy, hp]

/-- An offset names no register exactly where it is not word aligned (20_memory.md R55). -/
theorem hostRegAt_eq_none (off : Byte) : hostRegAt off = none ↔ off.toNat % 4 ≠ 0 := by
  unfold hostRegAt
  dsimp only
  constructor
  · intro h hc
    rw [if_neg (not_not.mpr hc)] at h
    split_ifs at h
  · exact fun h => if_pos h

end Sys2Proof.Machine
end

