-- ==== Sys2Proof/Laws/Assembler.lean ====
section
/-! SUPPORT. Byte strings and words are two views of one thing, and READSTATE reads the sixteen bytes of STATE
(30_encoding.md R79, 20_memory.md R53). -/

namespace Sys2Proof.Machine

@[simp] theorem bytesOfWords_nil : bytesOfWords [] = [] := rfl

@[simp] theorem bytesOfWords_cons (w : Word) (ws : List Word) :
    bytesOfWords (w :: ws) = byteAt 0 w :: byteAt 1 w :: byteAt 2 w :: byteAt 3 w :: bytesOfWords ws := rfl

/-- Packing the bytes of words gives the words back. -/
@[simp] theorem wordsOfBytes_bytesOfWords (ws : List Word) : wordsOfBytes (bytesOfWords ws) = ws := by
  induction ws with
  | nil => rfl
  | cons w ws ih => simp [wordsOfBytes, ih]

/-- A byte string of whole words is the bytes of the words it packs to. -/
theorem bytesOfWords_wordsOfBytes (b : List Byte) (h : b.length % 4 = 0) : bytesOfWords (wordsOfBytes b) = b := by
  induction b using wordsOfBytes.induct with
  | case1 b0 b1 b2 b3 rest ih =>
    simp only [List.length_cons] at h
    simp [wordsOfBytes, ih (by omega)]
  | case2 b hb =>
    match b, h with
    | [], _ => rfl
    | b0 :: b1 :: b2 :: b3 :: rest, _ => exact absurd rfl (hb b0 b1 b2 b3 rest)

/-- With nothing pending, the four reads of READSTATE deliver the STATE words, and the block they make is the bytes of
STATE0 to STATE3 in that order (30_encoding.md R79). -/
theorem readState_run (s : State) (rest : List HostAct) (hp : s.pending = none) (hs : s.script = asmReadState ++ rest) :
    ∃ t, Host.Core.run Sys2Proof.core 4 s = .next t ∧
      t = { s with script := rest, got := [s.state.w3, s.state.w2, s.state.w1, s.state.w0] ++ s.got } ∧
      t.readBlock = bytesOfWords [s.state.w0, s.state.w1, s.state.w2, s.state.w3] := by
  cases s
  cases hp
  cases hs
  exact ⟨_, rfl, rfl, rfl⟩

/-- Byte r + 4c of the bytes of a block is its byte at row r, column c (20_memory.md R53). -/
theorem bytesOfWords_block (b : Block) (r c : Fin 4) :
    (bytesOfWords [b.w0, b.w1, b.w2, b.w3])[r.val + 4 * c.val]? = some (b.byte r c) := by
  match r, c with
  | 0, 0 | 0, 1 | 0, 2 | 0, 3 | 1, 0 | 1, 1 | 1, 2 | 1, 3 => rfl
  | 2, 0 | 2, 1 | 2, 2 | 2, 3 | 3, 0 | 3, 1 | 3, 2 | 3, 3 => rfl

end Sys2Proof.Machine
end

