-- ==== Sys2Proof/Laws/Decode.lean ====
section
/-! SUPPORT. The fields of an encoded word, and what decoding can answer. -/

namespace Sys2Proof

@[simp] theorem fieldOpc_commandWord (o a b : Byte) : fieldOpc (commandWord o a b) = o :=
  Machine.byteAt_three_packWord 0 b a o

@[simp] theorem fieldA_commandWord (o a b : Byte) : fieldA (commandWord o a b) = a :=
  Machine.byteAt_two_packWord 0 b a o

@[simp] theorem fieldB_commandWord (o a b : Byte) : fieldB (commandWord o a b) = b :=
  Machine.byteAt_one_packWord 0 b a o

@[simp] theorem fieldZ_commandWord (o a b : Byte) : fieldZ (commandWord o a b) = 0 :=
  Machine.byteAt_zero_packWord 0 b a o

/-- A word with Z = 0 is made of its other three fields (30_encoding.md R72). -/
theorem commandWord_fields {v : Word} (h : fieldZ v = 0) : commandWord (fieldOpc v) (fieldA v) (fieldB v) = v := by
  have hp := Machine.packWord_byteAt v
  rwa [show Machine.byteAt 0 v = 0 from h] at hp

theorem fieldOpc_toNat (v : Word) : (fieldOpc v).toNat = v.toNat % 256 := by simp [fieldOpc]

theorem fieldA_toNat (v : Word) : (fieldA v).toNat = v.toNat / 0x100 % 256 := by
  simp [fieldA, Nat.shiftRight_eq_div_pow]

theorem fieldB_toNat (v : Word) : (fieldB v).toNat = v.toNat / 0x10000 % 256 := by
  simp [fieldB, Nat.shiftRight_eq_div_pow]

theorem fieldZ_toNat (v : Word) : (fieldZ v).toNat = v.toNat / 0x1000000 := by
  have h := v.isLt
  simp only [fieldZ, BitVec.extractLsb'_toNat, Nat.shiftRight_eq_div_pow]
  omega

/-- The words that decode (30_encoding.md R73). -/
theorem decode_eq_ok_iff (v : Word) (i : Instr) :
    decode v = .ok i ↔ ∃ m, mnemonicAt (fieldOpc v) = some m ∧ reservedNonzero (formatOf m) v = false ∧
      buildCommand m (fieldA v) (fieldB v) = i := by
  rw [decode]
  cases mnemonicAt (fieldOpc v) with
  | none => simp
  | some m => cases hr : reservedNonzero (formatOf m) v <;> simp [hr]

/-- The words that are rejected, and why (30_encoding.md R73). -/
theorem decode_eq_error_iff (v : Word) (e : CmdError) :
    decode v = .error e ↔ (mnemonicAt (fieldOpc v) = none ∧ e = .illegalOpcode) ∨
      (∃ m, mnemonicAt (fieldOpc v) = some m ∧ reservedNonzero (formatOf m) v = true ∧ e = .reservedField) := by
  rw [decode]
  cases mnemonicAt (fieldOpc v) with
  | none => cases e <;> simp
  | some m => cases hr : reservedNonzero (formatOf m) v <;> cases e <;> simp [hr]

end Sys2Proof
end

