-- ==== Sys2Proof/Laws/PerInstr.lean ====
section
/-! SUPPORT. Statements for all commands, one lemma each. Family TableRow: the encoding of a command has exactly the
fixed bits of its row of spec/opcode_table.json. -/

namespace Sys2Proof.Laws.TableRow

/-- The encoded word matches the row's mask and match. -/
def Statement (i : Instr) : Prop := encode i &&& tableMask i = tableMatch i

/-- The fixed bits of a word are those of its OPC and reserved bytes. -/
theorem commandWord_and_operand_a (opc a : Byte) :
    commandWord opc a 0 &&& 0xFFFF00FF = (0 : Byte) ++ (0 : Byte) ++ (0 : Byte) ++ opc := by
  have hm : (0xFFFF00FF : Word) = (0xFF : Byte) ++ (0xFF : Byte) ++ (0x00 : Byte) ++ (0xFF : Byte) := by decide
  rw [hm, commandWord, BitVec.and_append, BitVec.and_append, BitVec.and_append]
  have ones : ∀ x : Byte, x &&& 0xFF = x := fun x => BitVec.and_allOnes
  rw [ones, ones, show ∀ x : Byte, x &&& 0x00 = 0 from fun x => BitVec.and_zero]

/-- The fixed bits of a word with two operands. -/
theorem commandWord_and_operands (opc a b : Byte) :
    commandWord opc a b &&& 0xFF0000FF = (0 : Byte) ++ (0 : Byte) ++ (0 : Byte) ++ opc := by
  have hm : (0xFF0000FF : Word) = (0xFF : Byte) ++ (0x00 : Byte) ++ (0x00 : Byte) ++ (0xFF : Byte) := by decide
  rw [hm, commandWord, BitVec.and_append, BitVec.and_append, BitVec.and_append]
  have ones : ∀ x : Byte, x &&& 0xFF = x := fun x => BitVec.and_allOnes
  have zeros : ∀ x : Byte, x &&& 0x00 = 0 := fun x => BitVec.and_zero
  rw [ones, ones, zeros, zeros]

theorem sbox (x : Byte) : Statement (.sbox x) := commandWord_and_operand_a 0x01 x
theorem invsbox (y : Byte) : Statement (.invsbox y) := commandWord_and_operand_a 0x02 y
theorem ginv (x : Byte) : Statement (.ginv x) := commandWord_and_operand_a 0x03 x
theorem mulc (x m : Byte) : Statement (.mulc x m) := commandWord_and_operands 0x04 x m
theorem expand (nk nr : Nat) : Statement (.expand nk nr) :=
  commandWord_and_operands 0x10 (BitVec.ofNat 8 nk) (BitVec.ofNat 8 nr)
theorem rkread (i : Nat) : Statement (.rkread i) := commandWord_and_operand_a 0x11 (BitVec.ofNat 8 i)
theorem subbytes : Statement .subbytes := rfl
theorem shiftrows : Statement .shiftrows := rfl
theorem mixcolumns : Statement .mixcolumns := rfl
theorem addrk (r : Nat) : Statement (.addrk r) := commandWord_and_operand_a 0x23 (BitVec.ofNat 8 r)
theorem invsubbytes : Statement .invsubbytes := rfl
theorem invshiftrows : Statement .invshiftrows := rfl
theorem invmixcolumns : Statement .invmixcolumns := rfl
theorem encrypt : Statement .encrypt := rfl
theorem decrypt : Statement .decrypt := rfl

end Sys2Proof.Laws.TableRow
end

