-- ==== Sys2Proof/Tests/Slice0.lean ====
section
/-! SUPPORT. Tests of the model, each one step on a small state, with values from spec/ (the vector or rule is named),
and one witness for every statement that has hypotheses: a state and operands that meet all of them, one for each
clause, at the edges of its range. -/

open Sys2Proof Sys2Proof.Machine

set_option Elab.async false

namespace Sys2Proof.Tests

/-! ### Small states -/

/-- The reset state with STATE set. -/
def withBlock (b : Block) : State := { State.reset with state := b }

/-- The reset state with KSV = 1 and NK, NR set; RK holds the draws of the reset. -/
def keyed (nk nr : Nibble) : State := { State.reset with ksv := true, nk := nk, nr := nr }

/-- A state with nothing pending whose host has this script. -/
def idle (script : List HostAct) : State := { State.reset with script := script, ie := true, done := true }

/-- A state in which the command word v is pending, d steps before its completion. -/
def pendingIn (v : Word) (d : Nat) (script : List HostAct) : State :=
  { State.reset with cmdreg := v, pending := some v, delay := d, script := script, ie := true }

/-- The state a step or a command answers, looked at with f. -/
def after {α : Type} (o : Outcome) (f : State → α) : Option α :=
  match o with
  | .next t => some (f t)
  | .fault _ => none
  | .refused _ => none

/-- KEY of the vectors V1, V3 and V4: bytes 00, 01, 02, … -/
def countingKey : Vector Word 8 :=
  #v[0x00010203, 0x04050607, 0x08090A0B, 0x0C0D0E0F, 0x10111213, 0x14151617, 0x18191A1B, 0x1C1D1E1F]

/-- The state after EXPAND nk, nr of that key, with STATE set; the reset state should the command not complete. -/
def expanded (nk nr : Nat) (b : Block) : State :=
  match exec (.expand nk nr) { State.reset with key := countingKey } with
  | .next t => { t with state := b }
  | .fault _ => State.reset
  | .refused _ => State.reset

/-- 000102…0f, the block of V32 and V34. -/
def countingBlock : Block := ⟨0x00010203, 0x04050607, 0x08090A0B, 0x0C0D0E0F⟩

/-- The plaintext of V1, V3 and V4. -/
def plaintext : Block := ⟨0x00112233, 0x44556677, 0x8899AABB, 0xCCDDEEFF⟩

/-! ### WellFormed refuses what no operand byte holds (30_encoding.md R71) -/

theorem test_expand_nk_too_large : (Instr.expand 256 10).wellFormed = false := by decide
theorem test_expand_nr_too_large : (Instr.expand 4 256).wellFormed = false := by decide
theorem test_rkread_index_too_large : (Instr.rkread 256).wellFormed = false := by decide
theorem test_addrk_index_too_large : (Instr.addrk 256).wellFormed = false := by decide
theorem test_well_formed_edges :
    (Instr.expand 255 255).wellFormed = true ∧ (Instr.rkread 255).wellFormed = true ∧
      (Instr.addrk 255).wellFormed = true := by decide

/-! ### Decoding, from words written out by 30_encoding.md R72 and R74 -/

theorem test_decode_sbox : decode 0x00005301 = .ok (.sbox 0x53) := by decide
theorem test_decode_invsbox : decode 0x0000ED02 = .ok (.invsbox 0xED) := by decide
theorem test_decode_ginv : decode 0x00005303 = .ok (.ginv 0x53) := by decide
theorem test_decode_mulc : decode 0x00025704 = .ok (.mulc 0x57 0x02) := by decide
theorem test_decode_expand : decode 0x000A0410 = .ok (.expand 4 10) := by decide
theorem test_decode_rkread : decode 0x00002B11 = .ok (.rkread 43) := by decide
theorem test_decode_subbytes : decode 0x00000020 = .ok .subbytes := by decide
theorem test_decode_shiftrows : decode 0x00000021 = .ok .shiftrows := by decide
theorem test_decode_mixcolumns : decode 0x00000022 = .ok .mixcolumns := by decide
theorem test_decode_addrk : decode 0x00000B23 = .ok (.addrk 11) := by decide
theorem test_decode_invsubbytes : decode 0x00000028 = .ok .invsubbytes := by decide
theorem test_decode_invshiftrows : decode 0x00000029 = .ok .invshiftrows := by decide
theorem test_decode_invmixcolumns : decode 0x0000002A = .ok .invmixcolumns := by decide
theorem test_decode_encrypt : decode 0x00000030 = .ok .encrypt := by decide
theorem test_decode_decrypt : decode 0x00000031 = .ok .decrypt := by decide

/-- The words V12, V23, V24, V32, V34 and V40 reject with error 2. -/
theorem test_reserved_words : ([0x00015301, 0x01005301, 0x01135704, 0x010A0410, 0x00FF0011, 0xFF000011, 0x00000120,
    0x00010029, 0x00000130] : List Word).map decode = List.replicate 9 (.error .reservedField) := by decide +kernel

/-- The words V12 and V40 reject with error 1; 1 wins over 2 in 0xFF0000FF. -/
theorem test_unassigned_words : ([0x00000005, 0x00000000, 0x000000FF, 0xFF0000FF, 0x00000024, 0x0000002B,
    0x00000032] : List Word).map decode = List.replicate 7 (.error .illegalOpcode) := by decide +kernel

/-- A row of the opcode table with its operand bits 0 is read as its command. -/
theorem test_table_word : decodeTableWord 32 0x00000023 = some (.addrk 0) := by decide

/-- The encoder writes the word of P1. -/
theorem test_encode_expand : encode (.expand 4 10) = 0x000A0410 := by decide

/-! ### The table commands (V10, V11, V12) -/

theorem test_sbox : [0x00, 0x53, 0x80, 0xED, 0xFF].map (fun x => after (exec (.sbox x) State.reset) State.result) =
    [some 0x63, some 0xED, some 0xCD, some 0x55, some 0x16] := by decide +kernel
theorem test_invsbox :
    [0x00, 0x53, 0x63, 0xED, 0xFF].map (fun y => after (exec (.invsbox y) State.reset) State.result) =
    [some 0x52, some 0x50, some 0x00, some 0x53, some 0x7D] := by decide +kernel
theorem test_ginv : [0x00, 0x02, 0x53, 0x80, 0xFF].map (fun x => after (exec (.ginv x) State.reset) State.result) =
    [some 0x00, some 0x8D, some 0xCA, some 0x83, some 0x1C] := by decide +kernel
/-- The row x = ff of V10, and 0x57 by 3 and by 14 of V11 and V12. -/
theorem test_mulc : [(0xFF, 2), (0xFF, 3), (0xFF, 9), (0xFF, 11), (0xFF, 13), (0xFF, 14), (0x57, 3), (0x57, 14)].map
      (fun p => after (exec (.mulc p.1 p.2) State.reset) State.result) =
    [some 0xE5, some 0x1A, some 0x46, some 0xA3, some 0x97, some 0x8D, some 0xF9, some 0x67] := by decide +kernel
/-- V12: STATUS 0x00000406 and RESULT unchanged. -/
theorem test_mulc_bad_constant : after (exec (.mulc 0x57 0x13) { State.reset with result := 0xF9 })
    (fun t => (t.statusWord, t.result)) = some (0x00000406, 0xF9) := by decide +kernel

/-! ### The key schedule (V20, V23, V24) -/

/-- V20 and V21: the first table at 4, 40 and 43, the third at 12 (the Nk = 8 branch) and 59, the second at 10 (no
SubWord at i mod 8 = 4 when Nk = 6) and 51; and STATUS after each. -/
theorem test_expand :
    (let t := expanded 4 10 plaintext
     (t.rk[4], t.rk[40], t.rk[43], t.statusWord)) = (0xD6AA74FD, 0x13111D7F, 0x4D2B30C5, 0x00A40012) ∧
    (let t := expanded 8 14 plaintext
     (t.rk[12], t.rk[59], t.statusWord)) = (0x1651A8CD, 0x6D68DE36, 0x00E80012) ∧
    (let t := expanded 6 12 plaintext
     (t.rk[10], t.rk[51], t.statusWord)) = (0x4856E2E9, 0xE3A41D5D, 0x00C60012) := by decide +kernel
/-- V23 after a schedule: EXPAND 4, 12 leaves 0x00A40316. -/
theorem test_expand_unsupported :
    after (exec (.expand 4 12) (keyed 4 10)) State.statusWord = some 0x00A40316 := by decide +kernel
theorem test_rkread : after (exec (.rkread 43) (expanded 4 10 plaintext)) State.result = some 0x4D2B30C5 := by
  decide +kernel
/-- V24: no schedule, and one index past the schedule. -/
theorem test_rkread_errors : (after (exec (.rkread 0) State.reset) State.statusWord,
    after (exec (.rkread 52) (keyed 6 12)) State.statusWord) = (some 0x00000506, some 0x00C60616) := by
  decide +kernel

/-! ### The forward pipeline (V1, V3, V4, V32) -/

theorem test_subbytes : after (exec .subbytes (withBlock countingBlock)) State.state =
    some ⟨0x637C777B, 0xF26B6FC5, 0x3001672B, 0xFED7AB76⟩ := by decide +kernel
theorem test_shiftrows : after (exec .shiftrows (withBlock countingBlock)) State.state =
    some ⟨0x00050A0F, 0x04090E03, 0x080D0207, 0x0C01060B⟩ := by decide +kernel
theorem test_mixcolumns : after (exec .mixcolumns (withBlock countingBlock)) State.state =
    some ⟨0x02070005, 0x06030401, 0x0A0F080D, 0x0E0B0C09⟩ := by decide +kernel
/-- V33: columns db135345, 01000000, 2d26314c, ff000000. -/
theorem test_mixcolumns_columns :
    after (exec .mixcolumns (withBlock ⟨0xDB135345, 0x01000000, 0x2D26314C, 0xFF000000⟩)) State.state =
    some ⟨0x8E4DA1BC, 0x02010103, 0x4D7EBDF8, 0xE5FFFF1A⟩ := by decide +kernel
theorem test_addrk : after (exec (.addrk 1) (expanded 4 10 ⟨0x5F726415, 0x57F5BC92, 0xF7BE3B29, 0x1DB9F91A⟩))
    State.state = some ⟨0x89D810E8, 0x855ACE68, 0x2D1843D8, 0xCB128FE4⟩ := by decide +kernel
/-- V32: ADDRK 11 past NR = 10. -/
theorem test_addrk_range : after (exec (.addrk 11) (keyed 4 10)) State.statusWord = some 0x00A40616 := by
  decide +kernel
/-- V1. -/
theorem test_encrypt_128 : after (exec .encrypt (expanded 4 10 plaintext)) State.state =
    some ⟨0x69C4E0D8, 0x6A7B0430, 0xD8CDB780, 0x70B4C55A⟩ := by decide +kernel
/-- V4. -/
theorem test_encrypt_256 : after (exec .encrypt (expanded 8 14 plaintext)) State.state =
    some ⟨0x8EA2B7CA, 0x516745BF, 0xEAFC4990, 0x4B496089⟩ := by decide +kernel

/-! ### The inverse pipeline (V31, V34, V35) -/

theorem test_invsubbytes : after (exec .invsubbytes (withBlock countingBlock)) State.state =
    some ⟨0x52096AD5, 0x3036A538, 0xBF40A39E, 0x81F3D7FB⟩ := by decide +kernel
theorem test_invshiftrows : after (exec .invshiftrows (withBlock countingBlock)) State.state =
    some ⟨0x000D0A07, 0x04010E0B, 0x0805020F, 0x0C090603⟩ := by decide +kernel
theorem test_invmixcolumns : after (exec .invmixcolumns (withBlock countingBlock)) State.state =
    some ⟨0x0A0F080D, 0x0E0B0C09, 0x02070005, 0x06030401⟩ := by decide +kernel
/-- V33: columns db135345, 01000000, 2d26314c, ff000000. -/
theorem test_invmixcolumns_columns :
    after (exec .invmixcolumns (withBlock ⟨0xDB135345, 0x01000000, 0x2D26314C, 0xFF000000⟩)) State.state =
    some ⟨0x32A41D55, 0x0E090D0B, 0xA05050D6, 0x8D4697A3⟩ := by decide +kernel
/-- V31. -/
theorem test_decrypt_128 :
    after (exec .decrypt (expanded 4 10 ⟨0x69C4E0D8, 0x6A7B0430, 0xD8CDB780, 0x70B4C55A⟩)) State.state =
    some plaintext := by decide +kernel
/-- V35, the row that decrypts first. -/
theorem test_decrypt_256 :
    after (exec .decrypt (expanded 8 14 ⟨0xFFEEDDCC, 0xBBAA9988, 0x77665544, 0x33221100⟩)) State.state =
    some ⟨0xAE2CD4FC, 0xBFA204C3, 0x33397FD6, 0x8F2DC6D1⟩ := by decide +kernel

/-! ### Host accesses, completion and reset (V41, 20_memory.md R55 to R59, 70_reset_and_hazards.md R204) -/

/-- V41 rows 1 to 4: the registers read 0 after reset. -/
theorem test_reset_reads : [0x04, 0x08, 0x00, 0x0C].map (fun off =>
      after (step { State.reset with script := [.read off] }) State.got) =
    [some [0], some [0], some [0], some [0]] := by decide +kernel
/-- V41 rows 5 and 6: KEY reads 0 after a write; a reserved offset ignores one. -/
theorem test_key_is_write_only :
    (after (busWrite 0x20 0x12345678 State.reset) (fun t => (t.key[0], after (busRead 0x20 t) State.got)),
     busWrite 0x40 0xFFFFFFFF State.reset) =
    (some (0x12345678, some [0]), .next State.reset) := by rfl
/-- V41 row 7: only IE of CTRL is written. -/
theorem test_ctrl : after (busWrite 0x08 0xFFFFFFFF State.reset) State.ctrlWord = some 0x00000001 := by decide +kernel
/-- V41 row 10: the command is accepted, BUSY = 1 and DONE = 0. -/
theorem test_issue : after (busWrite 0x00 0x00005301 (idle [])) (fun t => (t.cmdreg, t.statusWord, t.irq)) =
    some (0x00005301, 0x00000001, false) := by decide +kernel
/-- V41 row 12: the write is dropped and sets OVR. -/
theorem test_busy_write : step (pendingIn 0x00005301 1 [.write 0x10 0x1]) =
    .next { pendingIn 0x00005301 0 [] with ovr := true } := by rfl
/-- V41 rows 13 and 14: the command completes and raises irq. -/
theorem test_completion : after (step { pendingIn 0x00005301 0 [] with ovr := true })
    (fun t => (t.result, t.statusWord, t.irq)) = some (0x000000ED, 0x0000000A, true) := by decide +kernel
/-- V41 row 16: DONE is acknowledged, OVR stays. -/
theorem test_acknowledge : after (busWrite 0x04 0x00000002 { idle [] with ovr := true })
    (fun t => (t.statusWord, t.irq)) = some (0x00000008, false) := by decide +kernel
/-- 20_memory.md R55. -/
theorem test_misaligned : step (idle [.read 0x02]) = .refused .misalignedAccess := by rfl
/-- 70_reset_and_hazards.md R204: a reset while a command is pending. -/
theorem test_reset_while_busy : after (step (pendingIn 0x00000030 3 [.reset])) (fun t => (t.pending, t.statusWord)) =
    some (none, 0x00000000) := by decide +kernel
/-- A placed command runs as the first one after reset. -/
theorem test_placed_command_runs : after (step (State.reset.withFetchWord 32 0x00005301)) State.result =
    some 0x000000ED := by decide +kernel
/-- The final state of a run: nothing to do and nothing pending (10_state.md R42). -/
theorem test_final : (State.reset.final, (pendingIn 0x00000030 0 []).final) = (true, false) := by decide
/-- CLR writes 0x0000000E to STATUS (30_encoding.md R79). -/
theorem test_clr : asmClr = [.write 0x04 0x0000000E] := by decide
/-- WR KEY7 is an access at 0x3C (20_memory.md R51). -/
theorem test_wr_key7 : asmWr (.key 7) 0x1C1D1E1F = [.write 0x3C 0x1C1D1E1F] := by decide

/-! ### Witnesses: every statement with hypotheses has a state and operands that meet them -/

theorem witness_decode_encode_round_trip : ∀ i ∈ ([.expand 255 255, .expand 0 0, .rkread 255, .addrk 255,
    .mulc 0xFF 0xFF, .sbox 0xFF, .decrypt] : List Instr), i.wellFormed = true := by decide

theorem witness_decoded_word : decode 0x00FFFF04 = .ok (.mulc 0xFF 0xFF) ∧ decode 0x00FFFF10 = .ok (.expand 255 255) ∧
    decode 0x0000FF11 = .ok (.rkread 255) ∧ decode 0x00000031 = .ok .decrypt := by decide

theorem witness_step_runs_the_decoded_command :
    (∃ (s : State) (v : Word) (i : Instr), s.pending = some v ∧ s.delay = 0 ∧ decode v = .ok i) ∧
    (∃ (s : State) (v : Word) (e : CmdError), s.pending = some v ∧ s.delay = 0 ∧ decode v = .error e) ∧
    (∃ (s : State) (v : Word) (d : Nat), s.pending = some v ∧ s.delay = d + 1) ∧ (∃ s : State, s.pending = none) :=
  ⟨⟨pendingIn 0x00000123 0 [], 0x00000123, .addrk 1, rfl, rfl, by decide⟩,
   ⟨pendingIn 0x00000032 0 [], 0x00000032, .illegalOpcode, rfl, rfl, by decide⟩,
   ⟨pendingIn 0x00000123 1 [], 0x00000123, 0, rfl, rfl⟩, ⟨State.reset, rfl⟩⟩

theorem witness_placed_command : (Instr.mulc 0x57 0x02).wellFormed = true ∧ (Instr.addrk 255).wellFormed = true := by
  decide

/-- The edges of every range of R75. -/
theorem witness_unassigned : ∀ v ∈ ([0x00, 0x05, 0x0F, 0x12, 0x1F, 0x24, 0x27, 0x2B, 0x2F, 0x32, 0xFF, 0xFF00] : List Nat),
    (let s := pendingIn (BitVec.ofNat 32 v) 0 []
     s.pending = some (BitVec.ofNat 32 v) ∧ s.delay = 0) ∧
    (let o := v % 256
     o = 0x00 ∨ (0x05 ≤ o ∧ o ≤ 0x0F) ∨ (0x12 ≤ o ∧ o ≤ 0x1F) ∨ (0x24 ≤ o ∧ o ≤ 0x27) ∨
       (0x2B ≤ o ∧ o ≤ 0x2F) ∨ 0x32 ≤ o) := by decide +kernel

/-- A word for each clause of R76: Z, A in format N, B in formats N, X and I. -/
theorem witness_reserved : ∀ n ∈ ([0x01005301, 0xFF000031, 0x00000120, 0x0000FF31, 0x00010029, 0x00015301, 0x00FF0011,
    0x00010023] : List Nat),
    (let v := BitVec.ofNat 32 n
     (pendingIn v 0 []).pending = some v ∧ (pendingIn v 0 []).delay = 0) ∧
    (let v := BitVec.ofNat 32 n
     let o := v.toNat % 256
     let a := v.toNat / 0x100 % 256
     let b := v.toNat / 0x10000 % 256
     let z := v.toNat / 0x1000000
     o ∈ [0x01, 0x02, 0x03, 0x04, 0x10, 0x11, 0x20, 0x21, 0x22, 0x23, 0x28, 0x29, 0x2A, 0x30, 0x31] ∧
       (z ≠ 0 ∨ (a ≠ 0 ∧ o ∈ [0x20, 0x21, 0x22, 0x28, 0x29, 0x2A, 0x30, 0x31]) ∨
         (b ≠ 0 ∧ o ≠ 0x04 ∧ o ≠ 0x10))) := by decide +kernel

theorem witness_ginv_has_an_inverse : (0x00 : Byte) = 0x00 ∧ (0x53 : Byte) ≠ 0x00 ∧ gmul 0x53 0xCA = 0x01 := by
  decide +kernel

/-- A constant with a table, and the constants next to the ones with tables. -/
theorem witness_mulc_constants :
    (∀ n ∈ ([0x02, 0x0E] : List Nat), BitVec.ofNat 8 n ∈ ([0x02, 0x03, 0x09, 0x0B, 0x0D, 0x0E] : List Byte)) ∧
    (∀ n ∈ ([0x00, 0x01, 0x04, 0x0F, 0xFF] : List Nat),
      BitVec.ofNat 8 n ∉ ([0x02, 0x03, 0x09, 0x0B, 0x0D, 0x0E] : List Byte)) := by
  decide

/-- Supported pairs, the pairs of V23, and a pair no byte holds. -/
theorem witness_expand_pairs : ((4, 10) : Nat × Nat) ∈ [(4, 10), (6, 12), (8, 14)] ∧
    ((8, 14) : Nat × Nat) ∈ [(4, 10), (6, 12), (8, 14)] ∧
    ∀ p ∈ ([(4, 12), (6, 10), (8, 10), (5, 11), (0, 0), (8, 16), (256, 10)] : List (Nat × Nat)),
      p ∉ ([(4, 10), (6, 12), (8, 14)] : List (Nat × Nat)) := by decide

/-- Word indices at both ends of each schedule: the first, the last, the first beyond. -/
theorem witness_schedule_words : ∀ p ∈ ([(4, 10, 43), (6, 12, 51), (8, 14, 59)] : List (Nibble × Nibble × Nat)),
    (let s := keyed p.1 p.2.1
     s.sound = true ∧ s.ksv = true ∧ 0 < 4 * (s.nr.toNat + 1) ∧ p.2.2 < 4 * (s.nr.toNat + 1) ∧
       p.2.2 + 1 ≥ 4 * (s.nr.toNat + 1)) := by decide +kernel

/-- Round indices at both ends of each schedule: the first, the last, the first beyond. -/
theorem witness_round_keys : ∀ p ∈ ([(4, 10, 10), (6, 12, 12), (8, 14, 14)] : List (Nibble × Nibble × Nat)),
    (let s := keyed p.1 p.2.1
     s.sound = true ∧ s.ksv = true ∧ 0 ≤ s.nr.toNat ∧ p.2.2 ≤ s.nr.toNat ∧ p.2.2 + 1 > s.nr.toNat) := by
  decide +kernel

/-- The same for a state in which EXPAND has written the schedule (EncryptEqualsItsStepCommands,
DecryptEqualsItsStepCommands, DecryptUndoesEncrypt). -/
theorem witness_cipher_states : (expanded 4 10 plaintext).sound = true ∧ (expanded 4 10 plaintext).ksv = true := by
  decide +kernel

theorem witness_no_schedule : State.reset.ksv = false := rfl

theorem witness_published_vector : (let s := { State.reset with key := countingKey }
    s.key[0] = 0x00010203 ∧ s.key[1] = 0x04050607 ∧ s.key[2] = 0x08090A0B ∧ s.key[3] = 0x0C0D0E0F) := by decide

/-- A command that succeeds and one that fails. -/
theorem witness_completion_frame : (∃ t, exec (.sbox 0x53) State.reset = .next t) ∧
    ∃ t, exec .encrypt State.reset = .next t := ⟨⟨_, rfl⟩, ⟨_, rfl⟩⟩

theorem witness_table_commands_frame : (∃ t, exec (.sbox 0x53) State.reset = .next t) ∧
    (∃ t, exec (.invsbox 0x53) State.reset = .next t) ∧ (∃ t, exec (.ginv 0x00) State.reset = .next t) ∧
    (∃ t, exec (.mulc 0x57 0x02) State.reset = .next t) ∧ ∃ t, exec (.rkread 43) (keyed 4 10) = .next t :=
  ⟨⟨_, rfl⟩, ⟨_, rfl⟩, ⟨_, rfl⟩, ⟨_, rfl⟩, ⟨_, rfl⟩⟩

theorem witness_state_commands_frame : (∃ t, exec .subbytes State.reset = .next t) ∧
    (∃ t, exec .shiftrows State.reset = .next t) ∧ (∃ t, exec .mixcolumns State.reset = .next t) ∧
    (∃ t, exec (.addrk 10) (keyed 4 10) = .next t) ∧ (∃ t, exec .encrypt (keyed 4 10) = .next t) ∧
    (∃ t, exec .invsubbytes State.reset = .next t) ∧ (∃ t, exec .invshiftrows State.reset = .next t) ∧
    (∃ t, exec .invmixcolumns State.reset = .next t) ∧ ∃ t, exec .decrypt (keyed 4 10) = .next t :=
  ⟨⟨_, rfl⟩, ⟨_, rfl⟩, ⟨_, rfl⟩, ⟨_, rfl⟩, ⟨_, rfl⟩, ⟨_, rfl⟩, ⟨_, rfl⟩, ⟨_, rfl⟩, ⟨_, rfl⟩⟩

theorem witness_expand_frame : (∃ t, exec (.expand 4 10) State.reset = .next t) ∧
    (∃ t, exec (.expand 4 12) State.reset = .next t) ∧ 4 * (10 + 1) ≤ 44 := ⟨⟨_, rfl⟩, ⟨_, rfl⟩, by decide⟩

/-- Sound states of each kind, and a step from each (StepKeepsSound). -/
theorem witness_sound_steps : (State.reset.sound = true ∧ ∃ t, step State.reset = .next t) ∧
    ((keyed 8 14).sound = true ∧ ∃ t, step (keyed 8 14) = .next t) ∧
    ((pendingIn 0x00000030 0 []).sound = true ∧ ∃ t, step (pendingIn 0x00000030 0 []) = .next t) :=
  ⟨⟨rfl, _, rfl⟩, ⟨rfl, _, rfl⟩, ⟨rfl, _, rfl⟩⟩

/-- A state whose RK holds the schedule an EXPAND wrote, with KSV = 1, and a step from it. -/
theorem witness_schedule_complete : (∃ s : State, s.ksv = true ∧ s.ScheduleComplete ∧ ∃ t, step s = .next t) := by
  refine ⟨{ State.reset with ksv := true, nk := 4, nr := 10, rk := overwriteRk (expandKey 4 10 countingKey) State.reset.rk },
    rfl, ?_, _, rfl⟩
  intro _
  refine ⟨countingKey, fun i hi => ?_⟩
  have hi : i < 44 := hi
  have hl : (expandKey 4 10 countingKey).length = 44 := expandKey_length rfl _
  have h4 : expandKey (4 : Nibble).toNat (10 : Nibble).toNat countingKey = expandKey 4 10 countingKey := rfl
  simp only [h4]
  rw [Vector.getElem?_eq_getElem (by omega), overwriteRk_getElem _ _ _ (by omega),
    List.getElem?_eq_getElem (by omega), List.getD_eq_getElem _ _ (by omega)]

/-- A sound state whose host is about to make a misaligned access, as a read and as a write, idle and busy. -/
theorem witness_misaligned : ((idle [.read 0x01]).sound = true ∧ (idle [.read 0x01]).hostDoes (.read 0x01) [] ∧
      (0x01 : Byte).toNat % 4 ≠ 0) ∧
    (pendingIn 0x00000030 1 [.write 0xFF 0]).hostDoes (.write 0xFF 0) [] ∧ (0xFF : Byte).toNat % 4 ≠ 0 :=
  ⟨⟨rfl, ⟨rfl, .inl rfl⟩, by decide⟩, ⟨rfl, .inr (by decide)⟩, by decide⟩

/-- A completing EXPAND, a reset, a host write of KEY, a read, an idle step: every kind of step has a next state
(OnlyExpandOrResetChangesTheSchedule, OnlyTheHostWritesKey, ResultIsWrittenByTableCommandsAndRkread). -/
theorem witness_steps : (∃ t, step (pendingIn 0x000A0410 0 []) = .next t) ∧ (∃ t, step (idle [.reset]) = .next t) ∧
    (∃ t, step (idle [.write 0x3C 1]) = .next t) ∧ (∃ t, step (idle [.write 0x20 1]) = .next t) ∧
    (∃ t, step (pendingIn 0x00005301 0 []) = .next t) ∧
    (∃ t, step (pendingIn 0x00005301 1 [.read 0x0C]) = .next t) ∧ ∃ t, step State.reset = .next t :=
  ⟨⟨_, rfl⟩, ⟨_, rfl⟩, ⟨_, rfl⟩, ⟨_, rfl⟩, ⟨_, rfl⟩, ⟨_, rfl⟩, ⟨_, rfl⟩⟩

/-- A step that completes no EXPAND of a supported pair (KeyIsSeenOnlyByExpand): one of another command, and one of
an unsupported pair. -/
theorem witness_key_is_seen_only_by_expand :
    ((∀ v nk nr, (pendingIn 0x00005301 0 []).due v → decode v = .ok (.expand nk nr) →
        (nk, nr) ∉ [(4, 10), (6, 12), (8, 14)]) ∧ ∃ t, step (pendingIn 0x00005301 0 []) = .next t) ∧
    ((∀ v nk nr, (pendingIn 0x000C0410 0 []).due v → decode v = .ok (.expand nk nr) →
        (nk, nr) ∉ [(4, 10), (6, 12), (8, 14)]) ∧ ∃ t, step (pendingIn 0x000C0410 0 []) = .next t) := by
  refine ⟨⟨?_, _, rfl⟩, ⟨?_, _, rfl⟩⟩
  · rintro v nk nr ⟨h, _⟩ hd
    obtain rfl : 0x00005301 = v := Option.some.inj h
    have h0 : decode 0x00005301 = .ok (.sbox 0x53) := by decide
    rw [h0] at hd; cases hd
  · rintro v nk nr ⟨h, _⟩ hd
    obtain rfl : 0x000C0410 = v := Option.some.inj h
    have h0 : decode 0x000C0410 = .ok (.expand 4 12) := by decide
    rw [h0] at hd; cases hd; decide

/-- A failing completion, a STATUS write that clears ERR, DONE and OVR, a reset, an accepted CMD write, a dropped
write at each edge (ErrIsSetByFailingAndClearedByTheHost, DoneFollowsIssueAndCompletion, OvrRecordsDroppedWrites,
IrqFollowsCompletionAndIssue). -/
theorem witness_flag_steps :
    ((pendingIn 0x00000032 0 []).due 0x00000032 ∧ ∃ t, step (pendingIn 0x00000032 0 []) = .next t) ∧
    ((idle [.write 0x04 0xE]).hostDoes (.write 0x04 0xE) [] ∧ (0xE : Word).getLsbD 1 = true ∧
      (0xE : Word).getLsbD 2 = true ∧ (0xE : Word).getLsbD 3 = true ∧ (∀ v, ¬ (idle [.write 0x04 0xE]).due v) ∧
      ∃ t, step (idle [.write 0x04 0xE]) = .next t) ∧
    ((idle [.write 0x00 0x30]).hostDoes (.write 0x00 0x30) [] ∧ (idle [.write 0x00 0x30]).pending = none ∧
      ∃ t, step (idle [.write 0x00 0x30]) = .next t) ∧
    (∀ off ∈ ([0x00, 0x10, 0x3C] : List Byte), ∃ t, step (pendingIn 0x30 1 [.write off 7]) = .next t) ∧
    ((idle [.reset]).hostDoes .reset [] ∧ ∃ t, step (idle [.reset]) = .next t) := by
  refine ⟨⟨⟨rfl, rfl⟩, _, rfl⟩, ⟨⟨rfl, .inl rfl⟩, by decide, by decide, by decide, ?_, _, rfl⟩,
    ⟨⟨rfl, .inl rfl⟩, rfl, _, rfl⟩, ?_, ⟨rfl, .inl rfl⟩, _, rfl⟩
  · rintro v ⟨h, _⟩; cases h
  · intro off h
    simp only [List.mem_cons, List.not_mem_nil, or_false] at h
    rcases h with rfl | rfl | rfl <;> exact ⟨_, rfl⟩

/-- A pending command with a delay and a host that polls, reads and writes (EveryAcceptedCommandCompletes,
InputsAtCompletionEqualInputsAtIssue). -/
theorem witness_pending_command :
    (let s := pendingIn 0x00000030 3 [.wait, .read 0x10, .write 0xFC 1]
     s.sound = true ∧ s.pending = some 0x00000030 ∧ s.hostAligned = true ∧ s.noReset = true) :=
  ⟨rfl, rfl, rfl, rfl⟩

/-- An offset at each edge of the register map, read and written while idle (IdleReadsReturnTheRegister,
IdleWritesTakeEffect). -/
theorem witness_idle_accesses : ∀ n ∈ ([0x00, 0x04, 0x08, 0x0C, 0x10, 0x14, 0x18, 0x1C, 0x20, 0x3C, 0x40, 0xFC] : List Nat),
    let off : Byte := BitVec.ofNat 8 n
    (idle [.read off]).pending = none ∧ (idle [.read off]).script = .read off :: [] ∧
    (idle [.write off 1]).pending = none ∧ (idle [.write off 1]).script = .write off 1 :: [] ∧ off.toNat % 4 = 0 := by
  decide

/-- The same while a command is pending (BusyHostAccesses). -/
theorem witness_busy_accesses : ∀ n ∈ ([0x00, 0x04, 0x08, 0x0C, 0x10, 0x1C, 0x20, 0x3C, 0x40, 0xFC] : List Nat),
    let off : Byte := BitVec.ofNat 8 n
    (pendingIn 0x30 1 [.read off]).pending = some 0x30 ∧ (pendingIn 0x30 1 [.read off]).delay = 0 + 1 ∧
    (pendingIn 0x30 1 [.read off]).script = .read off :: [] ∧
    (pendingIn 0x30 1 [.write off 1]).pending = some 0x30 ∧ (pendingIn 0x30 1 [.write off 1]).delay = 0 + 1 ∧
    (pendingIn 0x30 1 [.write off 1]).script = .write off 1 :: [] ∧ off.toNat % 4 = 0 := by decide

/-- The four clauses of HostWaits; the third with irq at 1 and at 0. -/
theorem witness_host_waits :
    ((idle [.wait]).script = .wait :: [] ∧ (idle [.wait]).pending = none) ∧
    ((pendingIn 0x30 1 [.wait]).script = .wait :: [] ∧ (pendingIn 0x30 1 [.wait]).pending = some 0x30 ∧
      (pendingIn 0x30 1 [.wait]).delay = 0 + 1) ∧
    ((idle [.waitIrq]).script = .waitIrq :: [] ∧ (idle [.waitIrq]).pending = none ∧ (idle [.waitIrq]).irq = true) ∧
    (let s := { State.reset with script := [.waitIrq] }
     s.script = .waitIrq :: [] ∧ s.pending = none ∧ s.irq = false) ∧
    (State.reset.script = [] ∧ State.reset.pending = none) := by decide

/-- The two clauses of StatusWordFields about a STATUS write, and a state with each value of BUSY. -/
theorem witness_status_writes :
    ((idle [.write 0x04 0xE]).pending = none ∧ (idle [.write 0x04 0xE]).script = .write 0x04 0xE :: []) ∧
    ((pendingIn 0x30 1 [.write 0x04 0xE]).pending = some 0x30 ∧ (pendingIn 0x30 1 [.write 0x04 0xE]).delay = 0 + 1 ∧
      (pendingIn 0x30 1 [.write 0x04 0xE]).script = .write 0x04 0xE :: []) := by decide

/-- A host that asserts reset, idle and with a command pending (ResetEventDiscardsThePendingCommand,
ResetDrawsNewWords). -/
theorem witness_reset_events : (idle [.reset, .wait]).hostDoes .reset [.wait] ∧
    (pendingIn 0x30 1 [.reset]).hostDoes .reset [] := ⟨⟨rfl, .inl rfl⟩, ⟨rfl, .inr (by decide)⟩⟩

/-- The plaintext block of P1 as sixteen bytes. -/
def plaintextBytes : List Byte :=
  [0x00, 0x11, 0x22, 0x33, 0x44, 0x55, 0x66, 0x77, 0x88, 0x99, 0xAA, 0xBB, 0xCC, 0xDD, 0xEE, 0xFF]

theorem witness_loadstate : plaintextBytes.length = 16 ∧
    (idle (asmLoadState plaintextBytes ++ [.wait])).pending = none ∧
    (idle (asmLoadState plaintextBytes ++ [.wait])).script = asmLoadState plaintextBytes ++ [.wait] := ⟨rfl, rfl, rfl⟩

/-- LOADSTATE writes the four words of P1. -/
theorem test_loadstate_words : asmLoadState plaintextBytes =
    [.write 0x10 0x00112233, .write 0x14 0x44556677, .write 0x18 0x8899AABB, .write 0x1C 0xCCDDEEFF] := by
  decide +kernel

/-- READSTATE of V1's ciphertext words gives the block string of V1; an older value in the list is not part of it. -/
theorem test_readstate_block :
    { State.reset with got := [0x70B4C55A, 0xD8CDB780, 0x6A7B0430, 0x69C4E0D8, 0x00A40012] }.readBlock =
    [0x69, 0xC4, 0xE0, 0xD8, 0x6A, 0x7B, 0x04, 0x30, 0xD8, 0xCD, 0xB7, 0x80, 0x70, 0xB4, 0xC5, 0x5A] := by
  decide +kernel

/-- The result of RD is the newest value read (30_encoding.md R78). -/
theorem test_line_result : { State.reset with got := [0x00000040, 0x00000001] }.lineResult = some 0x00000040 := by
  decide

/-- A key of each length. -/
theorem witness_loadkey : ∀ n ∈ ([16, 24, 32] : List Nat), (let k : List Byte := List.replicate n 0xA5
    (k.length = 16 ∨ k.length = 24 ∨ k.length = 32) ∧ (idle (asmLoadKey k)).pending = none ∧
      (idle (asmLoadKey k)).script = asmLoadKey k ++ []) := by decide +kernel

end Sys2Proof.Tests
end

section
/-! Offsets of the host window, and what a step that answers can have done (20_memory.md R51, 10_state.md R36). -/

namespace Sys2Proof.Machine

/-! ### Offsets -/

@[simp] theorem HostReg.offset_state_toNat (c : Fin 4) : (HostReg.state c).offset.toNat = 0x10 + 4 * c.val := by
  have hc := c.isLt
  simp only [HostReg.offset, BitVec.toNat_ofNat]
  omega

@[simp] theorem HostReg.offset_key_toNat (i : Fin 8) : (HostReg.key i).offset.toNat = 0x20 + 4 * i.val := by
  have hi := i.isLt
  simp only [HostReg.offset, BitVec.toNat_ofNat]
  omega

/-- Each register stands at its own offset (20_memory.md R51). -/
@[simp] theorem hostRegAt_offset (r : HostReg) : hostRegAt r.offset = some r := by
  cases r with
  | state c => fin_cases c <;> rfl
  | key i => fin_cases i <;> rfl
  | cmd | status | ctrl | result | reserved => rfl

/-- The offset of a register is the one offset where it is found; the reserved ones lie above the KEY words. -/
theorem offset_of_hostRegAt {off : Byte} {r : HostReg} (h : hostRegAt off = some r) :
    off = r.offset ∨ (r = .reserved ∧ 0x40 ≤ off.toNat) := by
  unfold hostRegAt at h
  dsimp only at h
  split_ifs at h <;> obtain rfl := Option.some.inj h
  case neg => exact .inr ⟨rfl, by omega⟩
  all_goals
    refine .inl (BitVec.eq_of_toNat_eq ?_)
    simp [HostReg.offset]
    omega

/-- The offset of a register that is not reserved. -/
theorem offset_eq_of_hostRegAt {off : Byte} {r : HostReg} (h : hostRegAt off = some r) (hr : r ≠ .reserved) :
    off = r.offset :=
  (offset_of_hostRegAt h).resolve_right fun hres => hr hres.1

/-- The register at an aligned offset. -/
theorem hostRegAt_of_aligned {off : Byte} (h : off.toNat % 4 = 0) : ∃ r, hostRegAt off = some r :=
  Option.ne_none_iff_exists'.mp fun hn => (hostRegAt_eq_none off).mp hn h

/-! ### The step -/

/-- With something left to do the host's turn is its next access. -/
theorem hostTurn_of_script {s : State} {a : HostAct} {rest : List HostAct} (hs : s.script = a :: rest) :
    hostTurn s = hostAct a (s.setScript rest) := by
  simp only [hostTurn, hs]

/-- At the host's turn the step is the host's access, with the delay one lower if a command is pending. -/
theorem State.hostDoes.step_eq {s : State} {a : HostAct} {rest : List HostAct} (h : s.hostDoes a rest) :
    ∃ d, step s = hostAct a ((s.setDelay d).setScript rest) := by
  obtain ⟨hs, hn⟩ := h
  rcases step_cases s with ⟨-, h⟩ | ⟨v, d, -, -, h⟩ | ⟨v, hp, hd, -⟩
  · exact ⟨s.delay, h.trans (hostTurn_of_script hs)⟩
  · exact ⟨d, h.trans (hostTurn_of_script (s := s.setDelay d) hs)⟩
  · simp [hp, hd] at hn

/-- A host write that reaches a register is one at its offset. -/
theorem State.hostDoes.at_register {s : State} {off : Byte} {r : HostReg} {v : Word} {rest : List HostAct}
    (hd : s.hostDoes (.write off v) rest) (hr : hostRegAt off = some r) (hn : r ≠ .reserved) :
    s.hostDoes (.write r.offset v) rest :=
  offset_eq_of_hostRegAt hr hn ▸ hd

/-- The registers of `t` are those of `s`: the two may differ on the host side alone, in the script, the values read,
the delay and the count of draws. -/
def State.SameRegisters (s t : State) : Prop :=
  ∃ script got delay draws, t = { s with script := script, got := got, delay := delay, draws := draws }

/-- What an access that answers leaves: the reset event, a register written, or all registers as they were. -/
theorem hostAct_next_cases {a : HostAct} {s t : State} (h : hostAct a s = .next t) :
    (a = .reset ∧ t = s.pinReset) ∨
    (∃ off v r, a = .write off v ∧ hostRegAt off = some r ∧ t = writeReg r v s) ∨
    s.SameRegisters t := by
  rcases hostAct_cases a s with ⟨_, _, _, e⟩ | ⟨_, _, -, e⟩ | ⟨_, -, e⟩ | ⟨off, v, r, ha, hr, e⟩ | ⟨-, e⟩ | ⟨-, e⟩ |
    ⟨ha, e⟩ <;> rw [e] at h <;> cases h
  · exact .inr (.inr ⟨_, _, _, _, rfl⟩)
  · exact .inr (.inr ⟨_, _, _, _, rfl⟩)
  · exact .inr (.inl ⟨off, v, r, ha, hr, rfl⟩)
  · exact .inr (.inr (by unfold pollStatus; dsimp only; split <;> exact ⟨_, _, _, _, rfl⟩))
  · exact .inr (.inr (by unfold pollIrq; split <;> exact ⟨_, _, _, _, rfl⟩))
  · exact .inl ⟨ha, rfl⟩

/-- What a step that answers can have done: complete the due command, reset, write a register, or leave all registers
as they were. Every rule about one field of the state is read off this. -/
theorem step_next_cases {s t : State} (h : step s = .next t) :
    (∃ v, s.due v ∧ completeCommand v s = .next t) ∨
    (∃ rest, s.hostDoes .reset rest ∧ t = (s.setScript rest).pinReset) ∨
    (∃ off v rest r d, s.hostDoes (.write off v) rest ∧ hostRegAt off = some r ∧
      t = writeReg r v ((s.setDelay d).setScript rest)) ∨
    ((∀ v, ¬ s.due v) ∧ s.SameRegisters t) := by
  have host : ∀ d, (s.pending = none ∨ s.delay ≠ 0) → hostTurn (s.setDelay d) = .next t →
      (∃ rest, s.hostDoes .reset rest ∧ t = (s.setScript rest).pinReset) ∨
      (∃ off v rest r d, s.hostDoes (.write off v) rest ∧ hostRegAt off = some r ∧
        t = writeReg r v ((s.setDelay d).setScript rest)) ∨
      ((∀ v, ¬ s.due v) ∧ s.SameRegisters t) := by
    intro d turn h
    have not_due : ∀ v, ¬ s.due v := by
      rintro v ⟨hp, hd⟩
      simp [hp, hd] at turn
    rcases hostTurn_cases (s.setDelay d) with ⟨-, e⟩ | ⟨a, rest, hs, e⟩ <;> rw [e] at h
    · cases h
      exact .inr (.inr ⟨not_due, _, _, _, _, rfl⟩)
    · rcases hostAct_next_cases h with ⟨rfl, rfl⟩ | ⟨off, v, r, rfl, hr, rfl⟩ | ⟨_, _, _, _, rfl⟩
      · exact .inl ⟨rest, ⟨hs, turn⟩, rfl⟩
      · exact .inr (.inl ⟨off, v, rest, r, d, ⟨hs, turn⟩, hr, rfl⟩)
      · exact .inr (.inr ⟨not_due, _, _, _, _, rfl⟩)
  rcases step_cases s with ⟨hp, e⟩ | ⟨v, d, -, hd, e⟩ | ⟨v, hp, hd, e⟩ <;> rw [e] at h
  · exact .inr (host s.delay (.inl hp) h)
  · exact .inr (host d (.inr (by simp [hd])) h)
  · exact .inl ⟨v, ⟨hp, hd⟩, h⟩

/-- A host write at a register's offset, at the host's turn, is the write of that register. -/
theorem State.hostDoes.write_next {s t : State} {r : HostReg} {v : Word} {rest : List HostAct}
    (hd : s.hostDoes (.write r.offset v) rest) (h : step s = .next t) :
    ∃ d, t = writeReg r v ((s.setDelay d).setScript rest) := by
  obtain ⟨d, e⟩ := hd.step_eq
  rw [e, hostAct, busWrite, hostRegAt_offset] at h
  exact ⟨d, (Host.Outcome.next.inj h).symm⟩

end Sys2Proof.Machine
end

section
/-! What a completed command leaves, by the register its command is for (10_state.md R36, 60_exceptions.md R181). -/

namespace Sys2Proof.Machine

/-- The registers a command writes when it succeeds. -/
inductive Target where
  /-- RESULT. -/
  | result
  /-- STATE. -/
  | state
  /-- RK, NK, NR and KSV. -/
  | schedule

/-- The registers each command writes when it succeeds (30_encoding.md R74); `exec_next_cases` says that exec keeps to
them. -/
def target : Instr → Target
  | .sbox _ | .invsbox _ | .ginv _ | .mulc _ _ | .rkread _ => .result
  | .expand _ _ => .schedule
  | .subbytes | .shiftrows | .mixcolumns | .addrk _ | .invsubbytes | .invshiftrows | .invmixcolumns
  | .encrypt | .decrypt => .state

/-- The commands for RESULT are the four table commands and RKREAD (10_state.md R28). -/
theorem target_eq_result_iff (i : Instr) :
    target i = .result ↔ (∃ x, i = .sbox x) ∨ (∃ y, i = .invsbox y) ∨ (∃ x, i = .ginv x) ∨
      (∃ x m, i = .mulc x m) ∨ ∃ n, i = .rkread n := by
  cases i <;> simp [target]

/-- A code of 60_exceptions.md R182 is one of 1 to 6. -/
theorem errorCode_toNat (e : CmdError) : 1 ≤ (errorCode e).toNat ∧ (errorCode e).toNat ≤ 6 := by
  cases e <;> decide

theorem errorCode_ne_zero (e : CmdError) : errorCode e ≠ 0 := by
  cases e <;> decide

/-- A body under the schedule check that answers: error 5 without a schedule, or the body's answer. -/
theorem withSchedule_next_cases {s t : State} {body : Outcome} (h : withSchedule s body = .next t) :
    t = s.failed .noSchedule ∨ body = .next t := by
  rcases withSchedule_cases s body with ⟨-, e⟩ | ⟨-, -, e⟩ | ⟨-, -, e⟩ <;> rw [e] at h
  · exact .inl (Host.Outcome.next.inj h).symm
  · cases h
  · exact .inr h

/-- A command that answers has failed and written the completion fields, or has succeeded and written its target. -/
theorem exec_next_cases {i : Instr} {s t : State} (h : exec i s = .next t) :
    (∃ e, t = s.failed e) ∨
    (target i = .result ∧ ∃ v, t = (s.setResult v).completed) ∨
    (target i = .state ∧ ∃ b, t = (s.setState b).completed) ∨
    (∃ nk nr, i = .expand nk nr ∧ supportedKey nk nr = true ∧
      t = (s.setSchedule nk nr (expandKey nk nr s.key)).completed) := by
  have answer : ∀ {u : State}, Host.Outcome.next u = (.next t : Outcome) → t = u :=
    fun e => (Host.Outcome.next.inj e).symm
  cases i with
  | sbox | invsbox | ginv => exact .inr (.inl ⟨rfl, _, answer h⟩)
  | mulc x m =>
    cases hm : mulRom m with
    | none => simp only [exec, execMulc, hm] at h; exact .inl ⟨_, answer h⟩
    | some rom => simp only [exec, execMulc, hm] at h; exact .inr (.inl ⟨rfl, _, answer h⟩)
  | expand nk nr =>
    simp only [exec, execExpand] at h
    split at h
    case isTrue hk => exact .inr (.inr (.inr ⟨nk, nr, rfl, hk, answer h⟩))
    case isFalse => exact .inl ⟨_, answer h⟩
  | rkread n =>
    rcases withSchedule_next_cases h with e | h
    · exact .inl ⟨_, e⟩
    · split at h
      · exact .inl ⟨_, answer h⟩
      · exact .inr (.inl ⟨rfl, _, answer h⟩)
  | addrk r =>
    rcases withSchedule_next_cases h with e | h
    · exact .inl ⟨_, e⟩
    · split at h
      · exact .inl ⟨_, answer h⟩
      · exact .inr (.inr (.inl ⟨rfl, _, answer h⟩))
  | encrypt | decrypt =>
    rcases withSchedule_next_cases h with e | h
    · exact .inl ⟨_, e⟩
    · exact .inr (.inr (.inl ⟨rfl, _, answer h⟩))
  | subbytes | shiftrows | mixcolumns | invsubbytes | invshiftrows | invmixcolumns =>
    exact .inr (.inr (.inl ⟨rfl, _, answer h⟩))

/-- A completion that answers has recorded an error, or is that of the decoded command, with its target written. -/
theorem completeCommand_next_cases {v : Word} {s t : State} (h : completeCommand v s = .next t) :
    (∃ e, t = s.failed e) ∨
    (∃ i, decode v = .ok i ∧ target i = .result ∧ ∃ w, t = (s.setResult w).completed) ∨
    (∃ b, t = (s.setState b).completed) ∨
    (∃ nk nr, decode v = .ok (.expand nk nr) ∧ supportedKey nk nr = true ∧
      t = (s.setSchedule nk nr (expandKey nk nr s.key)).completed) := by
  rcases completeCommand_cases v s with ⟨i, hi, e⟩ | ⟨e, -, he⟩
  · rw [e] at h
    rcases exec_next_cases h with hf | ⟨ht, hw⟩ | ⟨-, hb⟩ | ⟨nk, nr, rfl, hk, ht⟩
    · exact .inl hf
    · exact .inr (.inl ⟨i, hi, ht, hw⟩)
    · exact .inr (.inr (.inl hb))
    · exact .inr (.inr (.inr ⟨nk, nr, hi, hk, ht⟩))
  · rw [he] at h
    exact .inl ⟨e, (Host.Outcome.next.inj h).symm⟩

end Sys2Proof.Machine
end

section
/-! What a register write and a completion can do to each field, for the rules about one field. -/

namespace Sys2Proof.Machine

/-! ### A register write, field by field (20_memory.md R58, R59) -/

/-- With nothing pending a write takes effect. -/
theorem unlessBusy_of_idle {s : State} (hp : s.pending = none) (write : State → State) :
    unlessBusy write s = write s := by
  simp only [unlessBusy, (State.busy_eq_false s).mpr hp, Bool.false_eq_true, if_false]

/-- While a command is pending a write is dropped. -/
theorem unlessBusy_of_pending {s : State} {p : Word} (hp : s.pending = some p) (write : State → State) :
    unlessBusy write s = s.dropWrite := by
  simp only [unlessBusy, (State.busy_eq_true s).mpr ⟨p, hp⟩, if_true]

/-- No host write touches the schedule, RESULT or ERRCODE. -/
theorem writeReg_schedule_result (r : HostReg) (v : Word) (s : State) :
    (writeReg r v s).rk = s.rk ∧ (writeReg r v s).nk = s.nk ∧ (writeReg r v s).nr = s.nr ∧
    (writeReg r v s).ksv = s.ksv ∧ (writeReg r v s).result = s.result ∧ (writeReg r v s).errcode = s.errcode := by
  rcases writeReg_cases r v s with ⟨_, -, e⟩ | ⟨-, -, e⟩ | ⟨-, e⟩ | ⟨-, e⟩ | ⟨_, -, -, e⟩ | ⟨_, -, -, e⟩ | ⟨-, e⟩ <;>
    simp [e]

/-- KEY is written by a KEY write alone, with nothing pending. -/
theorem writeReg_key_cases (r : HostReg) (v : Word) (s : State) :
    (writeReg r v s).key = s.key ∨ ((∃ i, r = .key i) ∧ s.pending = none) := by
  cases r with
  | cmd | state c | key i => cases hp : s.pending <;> simp [writeReg, unlessBusy, State.busy, hp]
  | status | ctrl | result | reserved => exact .inl rfl

/-- ERR is cleared by a STATUS write with bit 2 set, and else kept. -/
theorem writeReg_err_cases (r : HostReg) (v : Word) (s : State) :
    (writeReg r v s).err = s.err ∨ ((writeReg r v s).err = false ∧ r = .status ∧ v.getLsbD 2 = true) := by
  cases r with
  | status => rw [writeReg, State.ackStatus_err]; cases v.getLsbD 2 <;> simp
  | cmd | state c | key i => cases hp : s.pending <;> simp [writeReg, unlessBusy, State.busy, hp]
  | ctrl | result | reserved => exact .inl rfl

/-- DONE is cleared by an accepted CMD write and by a STATUS write with bit 1 set, and else kept. -/
theorem writeReg_done_cases (r : HostReg) (v : Word) (s : State) :
    (writeReg r v s).done = s.done ∨
    ((writeReg r v s).done = false ∧ (r = .cmd ∧ s.pending = none ∨ r = .status ∧ v.getLsbD 1 = true)) := by
  cases r with
  | status => rw [writeReg, State.ackStatus_done]; cases v.getLsbD 1 <;> simp
  | cmd | state c | key i => cases hp : s.pending <;> simp [writeReg, unlessBusy, State.busy, hp]
  | ctrl | result | reserved => exact .inl rfl

/-- OVR is set by a write of CMD, STATE or KEY while a command is pending, cleared by a STATUS write with bit 3 set,
and else kept. -/
theorem writeReg_ovr_cases (r : HostReg) (v : Word) (s : State) :
    (writeReg r v s).ovr = s.ovr ∨
    ((writeReg r v s).ovr = true ∧ s.pending ≠ none ∧ (r = .cmd ∨ (∃ c, r = .state c) ∨ ∃ i, r = .key i)) ∨
    ((writeReg r v s).ovr = false ∧ r = .status ∧ v.getLsbD 3 = true) := by
  cases r with
  | status => rw [writeReg, State.ackStatus_ovr]; cases v.getLsbD 3 <;> simp
  | cmd | state c | key i => cases hp : s.pending <;> simp [writeReg, unlessBusy, State.busy, hp]
  | ctrl | result | reserved => exact .inl rfl

/-- An accepted CMD write clears DONE. -/
theorem writeReg_cmd_done {s : State} (h : s.pending = none) (v : Word) : (writeReg .cmd v s).done = false := by
  rw [writeReg, unlessBusy_of_idle h, State.issue_done]

/-- A STATUS write with bit 1 set clears DONE. -/
theorem writeReg_status_done {v : Word} (h : v.getLsbD 1 = true) (s : State) :
    (writeReg .status v s).done = false := by
  simp [writeReg, h]

/-! ### A completion -/

/-- A completion that answers leaves CMDREG, KEY, OVR, CTRL.IE and the host side, clears Pending, sets DONE, and says
in ERR and ERRCODE whether the command failed (10_state.md R36, 60_exceptions.md R181). -/
structure Completed (s t : State) : Prop where
  cmdreg : t.cmdreg = s.cmdreg
  key : t.key = s.key
  ovr : t.ovr = s.ovr
  ie : t.ie = s.ie
  script : t.script = s.script
  got : t.got = s.got
  lat : t.lat = s.lat
  delay : t.delay = s.delay
  draws : t.draws = s.draws
  pending : t.pending = none
  done : t.done = true
  outcome : (t.errcode = 0 ∧ t.err = s.err) ∨
    (t.errcode ≠ 0 ∧ t.err = true ∧ t.state = s.state ∧ t.rk = s.rk ∧ t.nk = s.nk ∧ t.nr = s.nr ∧
      t.ksv = s.ksv ∧ t.result = s.result)

theorem completed_failed (s : State) (e : CmdError) : Completed s (s.failed e) :=
  ⟨rfl, rfl, rfl, rfl, rfl, rfl, rfl, rfl, rfl, rfl, rfl,
    .inr ⟨errorCode_ne_zero e, rfl, rfl, rfl, rfl, rfl, rfl, rfl⟩⟩

/-- The frame of every command. -/
theorem exec_completed {i : Instr} {s t : State} (h : exec i s = .next t) : Completed s t := by
  rcases exec_next_cases h with ⟨e, rfl⟩ | ⟨-, _, rfl⟩ | ⟨-, _, rfl⟩ | ⟨_, _, -, -, rfl⟩
  · exact completed_failed s e
  all_goals exact ⟨rfl, rfl, rfl, rfl, rfl, rfl, rfl, rfl, rfl, rfl, rfl, .inl ⟨rfl, rfl⟩⟩

/-- The frame of every completion step, of a word that does not decode too. -/
theorem completeCommand_completed {v : Word} {s t : State} (h : completeCommand v s = .next t) : Completed s t := by
  rcases completeCommand_cases v s with ⟨i, -, e⟩ | ⟨e, -, he⟩
  · exact exec_completed (e ▸ h)
  · rw [he] at h
    cases h
    exact completed_failed s e

theorem Completed.err_eq {s t : State} (h : Completed s t) : t.err = (s.err || decide (t.errcode ≠ 0)) := by
  rcases h.outcome with ⟨hc, he⟩ | ⟨hc, he, -⟩
  · simp [hc, he]
  · rw [he, decide_eq_true hc, Bool.or_true]

/-- A due command that answers is completed. -/
theorem State.due.completed {s t : State} {v : Word} (hd : s.due v) (h : step s = .next t) : Completed s t :=
  completeCommand_completed ((step_of_due hd.1 hd.2).symm.trans h)

end Sys2Proof.Machine
end

section
/-! The invariants of the registers, kept by every step (10_state.md R26, R27, R29, R32, R35). -/

namespace Sys2Proof.Machine

/-! ### Sound states -/

/-- The clauses of soundness. -/
theorem State.sound_iff (s : State) :
    s.sound = true ↔ (∀ v, s.pending = some v → s.cmdreg = v ∧ s.done = false) ∧
      (s.ksv = true → supportedKey s.nk.toNat s.nr.toNat = true) ∧ (s.ksv = false → s.nk = 0 ∧ s.nr = 0) ∧
      s.errcode.toNat ≤ 6 := by
  cases hp : s.pending <;> cases hk : s.ksv <;> simp [State.sound, hp, hk, and_assoc]

/-- A supported pair survives being kept in the 4-bit fields NK and NR (10_state.md R26). -/
theorem supportedKey_ofNat {nk nr : Nat} (h : supportedKey nk nr = true) :
    (BitVec.ofNat 4 nk).toNat = nk ∧ (BitVec.ofNat 4 nr).toNat = nr := by
  simp only [supportedKey_iff, List.mem_cons, Prod.mk.injEq, List.not_mem_nil, or_false] at h
  rcases h with ⟨rfl, rfl⟩ | ⟨rfl, rfl⟩ | ⟨rfl, rfl⟩ <;> exact ⟨rfl, rfl⟩

theorem State.SameRegisters.sound_eq {s t : State} (h : s.SameRegisters t) : t.sound = s.sound := by
  obtain ⟨_, _, _, _, rfl⟩ := h
  rfl

/-- The reset event answers a sound state. -/
theorem State.sound_pinReset (s : State) : s.pinReset.sound = true := rfl

/-- A register write keeps a state sound: an accepted CMD write sets CMDREG, Pending and DONE together. -/
theorem writeReg_sound {s : State} (hs : s.sound = true) (r : HostReg) (v : Word) :
    (writeReg r v s).sound = true := by
  obtain ⟨hp, hk, hn, hc⟩ := s.sound_iff.mp hs
  rcases writeReg_cases r v s with ⟨_, -, e⟩ | ⟨-, -, e⟩ | ⟨-, e⟩ | ⟨-, e⟩ | ⟨_, -, -, e⟩ | ⟨_, -, -, e⟩ | ⟨-, e⟩ <;>
    rw [e]
  · exact hs
  · exact (State.sound_iff _).mpr ⟨fun w hw => ⟨Option.some.inj hw, rfl⟩, hk, hn, hc⟩
  · exact (State.sound_iff _).mpr ⟨fun w hw => ⟨(hp w hw).1, by simp [(hp w hw).2]⟩, hk, hn, hc⟩
  · exact hs
  · exact hs
  · exact hs
  · exact hs

/-- A completion keeps a state sound: nothing is pending after it, and EXPAND writes KSV, NK and NR together. -/
theorem completeCommand_sound {v : Word} {s t : State} (hs : s.sound = true) (h : completeCommand v s = .next t) :
    t.sound = true := by
  obtain ⟨-, hk, hn, -⟩ := s.sound_iff.mp hs
  rw [State.sound_iff]
  rcases completeCommand_next_cases h with ⟨e, rfl⟩ | ⟨_, -, -, _, rfl⟩ | ⟨_, rfl⟩ | ⟨nk, nr, -, supported, rfl⟩
  · exact ⟨nofun, hk, hn, (errorCode_toNat e).2⟩
  · exact ⟨nofun, hk, hn, Nat.zero_le _⟩
  · exact ⟨nofun, hk, hn, Nat.zero_le _⟩
  · obtain ⟨enk, enr⟩ := supportedKey_ofNat supported
    exact ⟨nofun, fun _ => by simp [enk, enr, supported], nofun, Nat.zero_le _⟩

/-- Settles O36: each thing a step can do keeps the clauses of soundness. -/
theorem stepKeepsSound : Obligations.StepKeepsSound := by
  unfold Obligations.StepKeepsSound
  intro s t hs h
  rcases step_next_cases h with ⟨v, -, hc⟩ | ⟨rest, -, rfl⟩ | ⟨off, v, rest, r, d, -, -, rfl⟩ | ⟨-, same⟩
  · exact completeCommand_sound hs hc
  · exact State.sound_pinReset _
  · exact writeReg_sound (s := (s.setDelay d).setScript rest) hs r v
  · exact same.sound_eq.trans hs

/-! ### Complete schedules -/

/-- The words of the RAM after a schedule is written: those of the schedule, and the old ones above it
(10_state.md R25). -/
theorem overwriteRk_getElem? (ws : List Word) (rk : Vector Word 60) {i : Nat} (hi : i < 60) :
    (overwriteRk ws rk)[i]? = if i < ws.length then ws[i]? else rk[i]? := by
  rw [Vector.getElem?_eq_getElem hi, overwriteRk_getElem ws rk i hi]
  by_cases h : i < ws.length <;> simp [h, hi]

/-- The claim of KSV reads KSV, NK, NR and RK alone. -/
theorem State.ScheduleComplete.congr {s t : State} (hs : s.ScheduleComplete) (hk : t.ksv = s.ksv) (hnk : t.nk = s.nk)
    (hnr : t.nr = s.nr) (hrk : t.rk = s.rk) : t.ScheduleComplete := by
  rw [State.ScheduleComplete, State.scheduleWords, hk, hnk, hnr, hrk]
  exact hs

/-- A schedule just written is that of KEY. -/
theorem scheduleComplete_setSchedule {nk nr : Nat} (h : supportedKey nk nr = true) (s : State) :
    (s.setSchedule nk nr (expandKey nk nr s.key)).completed.ScheduleComplete := by
  intro _
  obtain ⟨enk, enr⟩ := supportedKey_ofNat h
  refine ⟨s.key, fun i hi => ?_⟩
  simp only [State.scheduleWords, State.completed_nr, State.setSchedule_nr, enr] at hi
  have hlen := expandKey_length h s.key
  have hfit : i < 60 := by
    simp only [supportedKey_iff, List.mem_cons, Prod.mk.injEq, List.not_mem_nil, or_false] at h
    omega
  simp only [State.completed_rk, State.setSchedule_rk, State.completed_nk, State.setSchedule_nk, State.completed_nr,
    State.setSchedule_nr, enk, enr]
  rw [overwriteRk_getElem? _ _ hfit, if_pos (by omega)]

/-- Settles O37: only EXPAND writes what the claim of KSV reads, and it writes the schedule of KEY. -/
theorem stepKeepsScheduleComplete : Obligations.StepKeepsScheduleComplete := by
  unfold Obligations.StepKeepsScheduleComplete
  intro s t hs h
  rcases step_next_cases h with ⟨v, -, hc⟩ | ⟨rest, -, rfl⟩ | ⟨off, v, rest, r, d, -, -, rfl⟩ |
    ⟨-, _, _, _, _, rfl⟩
  · rcases completeCommand_next_cases hc with ⟨e, rfl⟩ | ⟨_, -, -, _, rfl⟩ | ⟨_, rfl⟩ | ⟨nk, nr, -, hk, rfl⟩
    · exact hs
    · exact hs
    · exact hs
    · exact scheduleComplete_setSchedule hk s
  · exact nofun
  · obtain ⟨hrk, hnk, hnr, hk, -, -⟩ := writeReg_schedule_result r v ((s.setDelay d).setScript rest)
    exact hs.congr hk hnk hnr hrk
  · exact hs

end Sys2Proof.Machine
end

section
/-! The rules about one field over every step: KEY, ERR, DONE, OVR, RESULT and irq (10_state.md R24, R28, R32, R33,
R34, R38). -/

namespace Sys2Proof.Machine

/-- Settles O40: of all a step can do, a KEY write and the reset event alone touch KEY. -/
theorem onlyTheHostWritesKey : Obligations.OnlyTheHostWritesKey := by
  unfold Obligations.OnlyTheHostWritesKey
  intro s t h
  rcases step_next_cases h with ⟨v, hd, -⟩ | ⟨rest, hd, -⟩ | ⟨off, v, rest, r, d, hd, hr, rfl⟩ |
    ⟨-, _, _, _, _, rfl⟩
  · exact .inl (hd.completed h).key
  · exact .inr (.inr ⟨rest, hd⟩)
  · rcases writeReg_key_cases r v ((s.setDelay d).setScript rest) with e | ⟨⟨i, rfl⟩, hp⟩
    · exact .inl e
    · obtain rfl := offset_eq_of_hostRegAt hr nofun
      have hi := i.isLt
      exact .inr (.inl ⟨_, v, rest, hd, hp, by simp, by simp; omega⟩)
  · exact .inl rfl

/-- Settles O45: a completion writes RESULT only for a command whose target it is, and no host write does. -/
theorem resultIsWrittenByTableCommandsAndRkread : Obligations.ResultIsWrittenByTableCommandsAndRkread := by
  unfold Obligations.ResultIsWrittenByTableCommandsAndRkread
  intro s t h
  rcases step_next_cases h with ⟨v, hd, hc⟩ | ⟨rest, hd, -⟩ | ⟨off, v, rest, r, d, -, -, rfl⟩ |
    ⟨-, _, _, _, _, rfl⟩
  · rcases completeCommand_next_cases hc with ⟨e, rfl⟩ | ⟨i, hi, ht, w, rfl⟩ | ⟨_, rfl⟩ | ⟨_, _, -, -, rfl⟩
    · exact .inl rfl
    · exact .inr (.inl ⟨v, i, hd, hi, rfl, (target_eq_result_iff i).mp ht⟩)
    · exact .inl rfl
    · exact .inl rfl
  · exact .inr (.inr ⟨rest, hd⟩)
  · obtain ⟨-, -, -, -, hresult, -⟩ := writeReg_schedule_result r v ((s.setDelay d).setScript rest)
    exact .inl hresult
  · exact .inl rfl

/-- Settles O42: a completion writes ERR as ERRCODE says, and of the host's writes an acknowledgement alone clears
it. -/
theorem errIsSetByFailingAndClearedByTheHost : Obligations.ErrIsSetByFailingAndClearedByTheHost := by
  unfold Obligations.ErrIsSetByFailingAndClearedByTheHost
  intro s t h
  refine ⟨fun v hd => (hd.completed h).err_eq, fun not_due => ?_⟩
  rcases step_next_cases h with ⟨v, hd, -⟩ | ⟨rest, hd, rfl⟩ | ⟨off, v, rest, r, d, hd, hr, rfl⟩ |
    ⟨-, _, _, _, _, rfl⟩
  · exact absurd hd (not_due v)
  · exact .inr ⟨rfl, .inr ⟨rest, hd⟩⟩
  · rcases writeReg_err_cases r v ((s.setDelay d).setScript rest) with e | ⟨e, rfl, hv⟩
    · exact .inl e
    · exact .inr ⟨e, .inl ⟨v, rest, hd.at_register hr nofun, hv⟩⟩
  · exact .inl rfl

/-- Settles O43: a completion sets DONE, and of the host's writes an accepted CMD and an acknowledgement clear it. -/
theorem doneFollowsIssueAndCompletion : Obligations.DoneFollowsIssueAndCompletion := by
  unfold Obligations.DoneFollowsIssueAndCompletion
  intro s t h
  refine ⟨fun v hd => (hd.completed h).done, fun v rest hd hp => ?_, fun v rest hd hv => ?_, fun not_due => ?_⟩
  · obtain ⟨d, rfl⟩ := hd.write_next (r := .cmd) h
    exact writeReg_cmd_done (s := (s.setDelay d).setScript rest) hp v
  · obtain ⟨d, rfl⟩ := hd.write_next (r := .status) h
    exact writeReg_status_done hv _
  · rcases step_next_cases h with ⟨v, hd, -⟩ | ⟨rest, hd, rfl⟩ | ⟨off, v, rest, r, d, hd, hr, rfl⟩ |
      ⟨-, _, _, _, _, rfl⟩
    · exact absurd hd (not_due v)
    · exact .inr ⟨rfl, .inr (.inr ⟨rest, hd⟩)⟩
    · rcases writeReg_done_cases r v ((s.setDelay d).setScript rest) with e | ⟨e, ⟨rfl, hp⟩ | ⟨rfl, hv⟩⟩
      · exact .inl e
      · exact .inr ⟨e, .inl ⟨v, rest, hd.at_register hr nofun, hp⟩⟩
      · exact .inr ⟨e, .inr (.inl ⟨v, rest, hd.at_register hr nofun, hv⟩)⟩
    · exact .inl rfl

/-- The registers whose writes are dropped while a command is pending stand at 0x00 and from 0x10 to 0x3C
(20_memory.md R59). -/
theorem offset_of_dropped {off : Byte} {r : HostReg} (h : hostRegAt off = some r)
    (hr : r = .cmd ∨ (∃ c, r = .state c) ∨ ∃ i, r = .key i) :
    off.toNat = 0x00 ∨ (0x10 ≤ off.toNat ∧ off.toNat ≤ 0x3C) := by
  rcases offset_of_hostRegAt h with rfl | ⟨rfl, -⟩
  · rcases hr with rfl | ⟨c, rfl⟩ | ⟨i, rfl⟩
    · exact .inl rfl
    · rw [HostReg.offset_state_toNat]; omega
    · rw [HostReg.offset_key_toNat]; omega
  · simp at hr

/-- Settles O44: of all a step can do, dropped writes, acknowledgements and reset alone touch OVR. -/
theorem ovrRecordsDroppedWrites : Obligations.OvrRecordsDroppedWrites := by
  unfold Obligations.OvrRecordsDroppedWrites
  intro s t h
  rcases step_next_cases h with ⟨v, hd, -⟩ | ⟨rest, hd, rfl⟩ | ⟨off, v, rest, r, d, hd, hr, rfl⟩ |
    ⟨-, _, _, _, _, rfl⟩
  · exact .inl (hd.completed h).ovr
  · exact .inr (.inr ⟨rfl, .inr ⟨rest, hd⟩⟩)
  · rcases writeReg_ovr_cases r v ((s.setDelay d).setScript rest) with e | ⟨e, hp, hdrop⟩ | ⟨e, rfl, hv⟩
    · exact .inl e
    · exact .inr (.inl ⟨e, off, v, rest, hd, hp, offset_of_dropped hr hdrop⟩)
    · exact .inr (.inr ⟨e, .inl ⟨v, rest, hd.at_register hr nofun, hv⟩⟩)
  · exact .inl rfl

/-- The irq output is low while DONE is 0 (10_state.md R38). -/
theorem State.irq_of_not_done {s : State} (h : s.done = false) : s.irq = false := by
  simp [State.irq, h]

/-- Settles O54: irq follows DONE, by the rule of O43. -/
theorem irqFollowsCompletionAndIssue : Obligations.IrqFollowsCompletionAndIssue := by
  unfold Obligations.IrqFollowsCompletionAndIssue
  intro s t h
  obtain ⟨-, issued, acknowledged, -⟩ := doneFollowsIssueAndCompletion s t h
  refine ⟨fun v hd => ?_, fun v rest hd hp => State.irq_of_not_done (issued v rest hd hp),
    fun v rest hd hv => State.irq_of_not_done (acknowledged v rest hd hv)⟩
  have done := hd.completed h
  rw [State.irq, done.done, done.ie, Bool.and_true]

end Sys2Proof.Machine
end

section
/-! KEY is seen only by EXPAND: everything else a step does commutes with a change of KEY (10_state.md R24). -/

namespace Sys2Proof.Machine

/-- The state with another KEY. -/
def State.withKey (k : Vector Word 8) (s : State) : State := { s with key := k }

/-- The schedule check reads KSV and NR, not KEY. -/
theorem withSchedule_withKey {s t : State} {body body' : Outcome} (k : Vector Word 8)
    (hb : body = .next t → body' = .next (t.withKey k)) (h : withSchedule s body = .next t) :
    withSchedule (s.withKey k) body' = .next (t.withKey k) := by
  rcases withSchedule_cases s body with ⟨hk, e⟩ | ⟨-, -, e⟩ | ⟨hk, hf, e⟩ <;> rw [e] at h
  · cases h
    exact withSchedule_no_schedule (s := s.withKey k) hk body'
  · cases h
  · rw [withSchedule_schedule (s := s.withKey k) hk hf]
    exact hb h

/-- A choice made alike under both keys. -/
theorem ite_withKey {c : Prop} [Decidable c] {t : State} {a a' b b' : Outcome} (k : Vector Word 8)
    (ha : a = .next t → a' = .next (t.withKey k)) (hb : b = .next t → b' = .next (t.withKey k))
    (h : (if c then a else b) = .next t) : (if c then a' else b') = .next (t.withKey k) := by
  by_cases hc : c
  · rw [if_pos hc] at h ⊢
    exact ha h
  · rw [if_neg hc] at h ⊢
    exact hb h

/-- A command other than a successful EXPAND does the same under another KEY. -/
theorem exec_withKey {i : Instr} {s t : State} (k : Vector Word 8)
    (hi : ∀ nk nr, i = .expand nk nr → supportedKey nk nr = false) (h : exec i s = .next t) :
    exec i (s.withKey k) = .next (t.withKey k) := by
  cases i with
  | sbox | invsbox | ginv => cases h; rfl
  | subbytes | shiftrows | mixcolumns | invsubbytes | invshiftrows | invmixcolumns => cases h; rfl
  | mulc x m =>
    cases hm : mulRom m <;> simp only [exec, execMulc, hm] at h ⊢ <;> cases h <;> rfl
  | expand nk nr =>
    have unsupported := hi nk nr rfl
    simp only [exec, execExpand, unsupported, Bool.false_eq_true, if_false] at h ⊢
    cases h
    rfl
  | rkread | addrk =>
    exact withSchedule_withKey k (ite_withKey k (fun e => by cases e; rfl) (fun e => by cases e; rfl)) h
  | encrypt | decrypt => exact withSchedule_withKey k (fun e => by cases e; rfl) h

/-- A completion other than that of a successful EXPAND does the same under another KEY. -/
theorem completeCommand_withKey {v : Word} {s t : State} (k : Vector Word 8)
    (hv : ∀ nk nr, decode v = .ok (.expand nk nr) → supportedKey nk nr = false) (h : completeCommand v s = .next t) :
    completeCommand v (s.withKey k) = .next (t.withKey k) := by
  unfold completeCommand at h ⊢
  cases hd : decode v with
  | ok i =>
    rw [hd] at h hv
    exact exec_withKey k (fun nk nr hi => hv nk nr (hi ▸ rfl)) h
  | error e =>
    rw [hd] at h
    cases h
    rfl

/-- A write that takes effect alike under another KEY is dropped alike while a command is pending. -/
theorem unlessBusy_withKey {write : State → State} {k k' : Vector Word 8} {s : State}
    (h : write (s.withKey k) = (write s).withKey k') :
    ∃ k', unlessBusy write (s.withKey k) = (unlessBusy write s).withKey k' := by
  cases hp : s.pending with
  | none => exact ⟨k', by rw [unlessBusy_of_idle hp, unlessBusy_of_idle (s := s.withKey k) hp, h]⟩
  | some p =>
    rw [unlessBusy_of_pending hp, unlessBusy_of_pending (s := s.withKey k) hp]
    exact ⟨k, rfl⟩

/-- A register write under another KEY differs in KEY alone. -/
theorem writeReg_withKey (r : HostReg) (v : Word) (k : Vector Word 8) (s : State) :
    ∃ k', writeReg r v (s.withKey k) = (writeReg r v s).withKey k' := by
  cases r with
  | cmd => exact unlessBusy_withKey (write := State.issue v) (k' := k) rfl
  | state c => exact unlessBusy_withKey (write := State.setStateWord c v) (k' := k) rfl
  | key i => exact unlessBusy_withKey (write := State.setKeyWord i v) (k' := k.set i v) rfl
  | status | ctrl | result | reserved => exact ⟨k, rfl⟩

/-- A read returns nothing of KEY (20_memory.md R58). -/
theorem readReg_withKey (r : HostReg) (k : Vector Word 8) (s : State) : readReg r (s.withKey k) = readReg r s := by
  cases r <;> rfl

theorem pollStatus_withKey (k : Vector Word 8) (s : State) :
    pollStatus (s.withKey k) = (pollStatus s).withKey k := by
  rw [pollStatus, pollStatus, apply_ite (State.withKey k)]
  rfl

theorem pollIrq_withKey (k : Vector Word 8) (s : State) : pollIrq (s.withKey k) = (pollIrq s).withKey k := by
  rw [pollIrq, pollIrq, apply_ite (State.withKey k)]
  rfl

/-- A host access under another KEY differs in KEY alone. -/
theorem hostAct_withKey {a : HostAct} {s t : State} (k : Vector Word 8) (h : hostAct a s = .next t) :
    ∃ k', hostAct a (s.withKey k) = .next (t.withKey k') := by
  cases a with
  | read off =>
    refine ⟨k, ?_⟩
    simp only [hostAct, busRead] at h ⊢
    cases hr : hostRegAt off with
    | none => simp [hr] at h
    | some r =>
      simp only [hr] at h ⊢
      cases h
      rw [readReg_withKey, apply_ite (State.withKey k)]
      rfl
  | write off v =>
    simp only [hostAct, busWrite] at h ⊢
    cases hr : hostRegAt off with
    | none => simp [hr] at h
    | some r =>
      simp only [hr] at h ⊢
      cases h
      obtain ⟨k', e⟩ := writeReg_withKey r v k s
      exact ⟨k', congrArg _ e⟩
  | wait =>
    cases h
    exact ⟨k, congrArg Host.Outcome.next (pollStatus_withKey k s)⟩
  | waitIrq =>
    cases h
    exact ⟨k, congrArg Host.Outcome.next (pollIrq_withKey k s)⟩
  | reset =>
    cases h
    exact ⟨s.pinReset.key, rfl⟩

/-- A host turn under another KEY differs in KEY alone. -/
theorem hostTurn_withKey {s t : State} (k : Vector Word 8) (h : hostTurn s = .next t) :
    ∃ k', hostTurn (s.withKey k) = .next (t.withKey k') := by
  rcases hostTurn_cases s with ⟨hs, e⟩ | ⟨a, rest, hs, e⟩ <;> rw [e] at h
  · cases h
    exact ⟨k, by simp [hostTurn, State.withKey, hs]⟩
  · obtain ⟨k', e'⟩ := hostAct_withKey k h
    exact ⟨k', (hostTurn_of_script (s := s.withKey k) hs).trans e'⟩

/-- Settles O41: each of the three things a step can be commutes with a change of KEY. -/
theorem keyIsSeenOnlyByExpand : Obligations.KeyIsSeenOnlyByExpand := by
  unfold Obligations.KeyIsSeenOnlyByExpand
  intro s t k hx h
  rcases step_cases s with ⟨hp, e⟩ | ⟨v, d, hp, hd, e⟩ | ⟨v, hp, hd, e⟩ <;> rw [e] at h
  · obtain ⟨k', ht⟩ := hostTurn_withKey k h
    exact ⟨k', (step_of_idle (s := s.withKey k) hp).trans ht⟩
  · obtain ⟨k', ht⟩ := hostTurn_withKey k h
    exact ⟨k', (step_of_delay (s := s.withKey k) hp hd).trans ht⟩
  · have unsupported : ∀ nk nr, decode v = .ok (.expand nk nr) → supportedKey nk nr = false :=
      fun nk nr hv => (supportedKey_eq_false_iff nk nr).mpr (hx v nk nr ⟨hp, hd⟩ hv)
    exact ⟨k, (step_of_due (s := s.withKey k) hp hd).trans (completeCommand_withKey k unsupported h)⟩

end Sys2Proof.Machine
end

section
/-! The inputs of a pending command, and whose turn it is, over runs (10_state.md R36, 20_memory.md R59). -/

namespace Sys2Proof.Machine

/-- Pending and all that a command reads are the same in both states. -/
structure InputsKept (s t : State) : Prop where
  pending : t.pending = s.pending
  state : t.state = s.state
  key : t.key = s.key
  rk : t.rk = s.rk
  nk : t.nk = s.nk
  nr : t.nr = s.nr
  ksv : t.ksv = s.ksv
  result : t.result = s.result

theorem InputsKept.refl (s : State) : InputsKept s s := ⟨rfl, rfl, rfl, rfl, rfl, rfl, rfl, rfl⟩

theorem InputsKept.trans {s t u : State} (h : InputsKept s t) (h' : InputsKept t u) : InputsKept s u :=
  ⟨h'.pending.trans h.pending, h'.state.trans h.state, h'.key.trans h.key, h'.rk.trans h.rk, h'.nk.trans h.nk,
    h'.nr.trans h.nr, h'.ksv.trans h.ksv, h'.result.trans h.result⟩

/-- The host makes aligned accesses only and asserts no reset in the rest of its script (20_memory.md R55). -/
def State.hostBehaves (s : State) : Prop := s.hostAligned = true ∧ s.noReset = true

/-- A host that behaves does so in its next action and after it. -/
theorem hostBehaves_iff_of_script {s : State} {a : HostAct} {rest : List HostAct} (hs : s.script = a :: rest) :
    s.hostBehaves ↔ a.aligned = true ∧ a ≠ .reset ∧ (s.setScript rest).hostBehaves := by
  simp only [State.hostBehaves, State.hostAligned, State.noReset, hs, State.setScript_script, List.all_cons,
    Bool.and_eq_true, decide_eq_true_eq]
  tauto

/-- While a command is pending a register write keeps its inputs, for a write of STATE or KEY is dropped
(20_memory.md R59). -/
theorem writeReg_inputsKept {s : State} {p : Word} (hp : s.pending = some p) (r : HostReg) (v : Word) :
    InputsKept s (writeReg r v s) ∧ (writeReg r v s).delay = s.delay ∧ (writeReg r v s).script = s.script := by
  cases r with
  | cmd | state c | key i =>
    rw [writeReg, unlessBusy_of_pending hp]
    exact ⟨⟨rfl, rfl, rfl, rfl, rfl, rfl, rfl, rfl⟩, rfl, rfl⟩
  | status | ctrl | result | reserved => exact ⟨⟨rfl, rfl, rfl, rfl, rfl, rfl, rfl, rfl⟩, rfl, rfl⟩

/-- An access of a host that behaves answers; while a command is pending it keeps its inputs and its delay. -/
theorem hostAct_inputsKept {s : State} {p : Word} {a : HostAct} (hp : s.pending = some p) (ha : a.aligned = true)
    (hr : a ≠ .reset) (hb : s.hostBehaves) :
    ∃ t, hostAct a s = .next t ∧ InputsKept s t ∧ t.delay = s.delay ∧ t.hostBehaves := by
  rcases hostAct_cases a s with ⟨off, haoff, hn, -⟩ | ⟨_, _, -, e⟩ | ⟨_, -, e⟩ | ⟨_, v, r, -, -, e⟩ | ⟨-, e⟩ |
    ⟨-, e⟩ | ⟨hreset, -⟩
  · rw [hostRegAt_eq_none] at hn
    rcases haoff with rfl | ⟨_, rfl⟩ <;> simp [HostAct.aligned, hn] at ha
  · exact ⟨_, e, ⟨rfl, rfl, rfl, rfl, rfl, rfl, rfl, rfl⟩, rfl, hb⟩
  · exact ⟨_, e, ⟨rfl, rfl, rfl, rfl, rfl, rfl, rfl, rfl⟩, rfl, hb⟩
  · obtain ⟨kept, hd, hs⟩ := writeReg_inputsKept hp r v
    refine ⟨_, e, kept, hd, ?_⟩
    rwa [State.hostBehaves, State.hostAligned, State.noReset, hs]
  · refine ⟨_, e, ?_⟩
    unfold pollStatus
    dsimp only
    split
    · exact ⟨⟨rfl, rfl, rfl, rfl, rfl, rfl, rfl, rfl⟩, rfl, (hostBehaves_iff_of_script rfl).mpr ⟨rfl, nofun, hb⟩⟩
    · exact ⟨⟨rfl, rfl, rfl, rfl, rfl, rfl, rfl, rfl⟩, rfl, hb⟩
  · refine ⟨_, e, ?_⟩
    unfold pollIrq
    split
    · exact ⟨InputsKept.refl s, rfl, hb⟩
    · exact ⟨⟨rfl, rfl, rfl, rfl, rfl, rfl, rfl, rfl⟩, rfl, (hostBehaves_iff_of_script rfl).mpr ⟨rfl, nofun, hb⟩⟩
  · exact absurd hreset hr

/-- While a delay is left a step keeps the inputs of the pending command and takes one from the delay. -/
theorem step_inputsKept {s : State} {p : Word} {d : Nat} (hp : s.pending = some p) (hd : s.delay = d + 1)
    (hb : s.hostBehaves) : ∃ t, step s = .next t ∧ InputsKept s t ∧ t.delay = d ∧ t.hostBehaves := by
  rw [step_of_delay hp hd]
  rcases hostTurn_cases (s.setDelay d) with ⟨-, e⟩ | ⟨a, rest, hs, e⟩
  · exact ⟨_, e, ⟨rfl, rfl, rfl, rfl, rfl, rfl, rfl, rfl⟩, rfl, hb⟩
  · obtain ⟨ha, hr, hrest⟩ := (hostBehaves_iff_of_script (s := s.setDelay d) hs).mp hb
    obtain ⟨t, h, ht, hdelay, hbt⟩ := hostAct_inputsKept (s := (s.setDelay d).setScript rest) hp ha hr hrest
    have moved : InputsKept s ((s.setDelay d).setScript rest) := ⟨rfl, rfl, rfl, rfl, rfl, rfl, rfl, rfl⟩
    exact ⟨t, e.trans h, moved.trans ht, hdelay, hbt⟩

/-- A run takes the step that answers first. -/
theorem run_succ_of_step {s t : State} (h : step s = .next t) (n : Nat) :
    Host.Core.run Sys2Proof.core (n + 1) s = Host.Core.run Sys2Proof.core n t := by
  have hc : Sys2Proof.core.step s = .next t := h
  simp only [Host.Core.run, hc]

/-- The run of the delay answers a state where the command is due and its inputs are kept. -/
theorem run_delay_inputsKept (d : Nat) {s : State} {p : Word} (hp : s.pending = some p) (hd : s.delay = d)
    (hb : s.hostBehaves) :
    ∃ t : State, Host.Core.run Sys2Proof.core d s = .next t ∧ t.delay = 0 ∧ InputsKept s t := by
  induction d generalizing s with
  | zero => exact ⟨s, rfl, hd, InputsKept.refl s⟩
  | succ d ih =>
    obtain ⟨u, hstep, kept, hdelay, hbu⟩ := step_inputsKept hp hd hb
    obtain ⟨t, hrun, hdue, kept'⟩ := ih (kept.pending.trans hp) hdelay hbu
    exact ⟨t, (run_succ_of_step hstep d).trans hrun, hdue, kept.trans kept'⟩

/-- Settles O47, by induction on the delay. -/
theorem inputsAtCompletionEqualInputsAtIssue : Obligations.InputsAtCompletionEqualInputsAtIssue := by
  unfold Obligations.InputsAtCompletionEqualInputsAtIssue
  intro s v hp haligned hreset
  obtain ⟨t, hrun, hdue, kept⟩ := run_delay_inputsKept s.delay hp rfl ⟨haligned, hreset⟩
  exact ⟨t, hrun, ⟨kept.pending.trans hp, hdue⟩, kept.state, kept.key, kept.rk, kept.nk, kept.nr, kept.ksv,
    kept.result⟩

end Sys2Proof.Machine
end

section
/-! The commands: the step that completes one, the frames, EXPAND, RKREAD and SHIFTROWS (30_encoding.md R73,
42_key_schedule.md R125, R126, 43_forward_cipher.md R146). -/

namespace Sys2Proof.Machine

/-! ### The step of a pending command -/

/-- A word that decodes completes by exec of its command. -/
theorem completeCommand_ok {v : Word} {i : Instr} (h : decode v = .ok i) (s : State) :
    completeCommand v s = exec i s := by
  simp only [completeCommand, h]

/-- A word that does not decode completes with its error. -/
theorem completeCommand_error {v : Word} {e : CmdError} (h : decode v = .error e) (s : State) :
    completeCommand v s = .next (s.failed e) := by
  simp only [completeCommand, h, raiseError]

/-- Settles O4: whose turn it is follows from Pending and the delay. -/
theorem stepRunsTheDecodedCommand : Obligations.StepRunsTheDecodedCommand := by
  unfold Obligations.StepRunsTheDecodedCommand
  refine ⟨fun s v i hp hd hi => ?_, fun s v e hp hd he => ?_, fun s v d hp hd => step_of_delay hp hd,
    fun s hp => step_of_idle hp⟩
  · rw [step_of_due hp hd, completeCommand_ok hi]
  · rw [step_of_due hp hd, completeCommand_error he]
    rfl

/-! ### Encoding and decoding -/

/-- A byte operand read back from its field. -/
theorem toNat_ofNat_of_fitsByte {n : Nat} (h : fitsByte n = true) : (BitVec.ofNat 8 n).toNat = n := by
  rw [BitVec.toNat_ofNat]
  exact Nat.mod_eq_of_lt (of_decide_eq_true h)

/-- A word made of an assigned opcode and operands that keep the reserved bytes 0 decodes to its row's command
(30_encoding.md R73). -/
theorem decode_commandWord {o a b : Byte} {m : Mnemonic} {i : Instr} (hm : mnemonicAt o = some m)
    (ha : reservesA (formatOf m) = true → a = 0) (hb : reservesB (formatOf m) = true → b = 0)
    (hi : buildCommand m a b = i) : decode (commandWord o a b) = .ok i := by
  rw [decode_eq_ok_iff]
  refine ⟨m, by rw [fieldOpc_commandWord, hm], ?_, by rw [fieldA_commandWord, fieldB_commandWord, hi]⟩
  simp only [reservedNonzero, fieldZ_commandWord, fieldA_commandWord, fieldB_commandWord, bne_self_eq_false,
    Bool.false_or, Bool.or_eq_false_iff, Bool.and_eq_false_imp, bne_iff_ne]
  exact ⟨fun h => by simpa using mt ha h, fun h => by simpa using mt hb h⟩

/-- Decoding undoes encoding, for every well-formed command (30_encoding.md R72, R73). -/
theorem decode_encode {i : Instr} (h : i.wellFormed = true) : decode (encode i) = .ok i := by
  cases i <;> rw [encode]
  case sbox | invsbox | ginv => exact decode_commandWord rfl nofun (fun _ => rfl) rfl
  case mulc => exact decode_commandWord rfl nofun nofun rfl
  case expand nk nr =>
    obtain ⟨hk, hr⟩ := Bool.and_eq_true_iff.mp h
    exact decode_commandWord rfl nofun nofun
      (by rw [buildCommand, toNat_ofNat_of_fitsByte hk, toNat_ofNat_of_fitsByte hr])
  case rkread | addrk =>
    exact decode_commandWord rfl nofun (fun _ => rfl) (by rw [buildCommand, toNat_ofNat_of_fitsByte h])
  case subbytes | shiftrows | mixcolumns | invsubbytes | invshiftrows | invmixcolumns | encrypt | decrypt =>
    exact decode_commandWord rfl (fun _ => rfl) (fun _ => rfl) rfl

/-- A word of the opcode table's 32 bits is itself. -/
theorem tableWord_toNat (v : Word) : tableWord 32 v.toNat = v := by
  rw [tableWord, Nat.mod_eq_of_lt v.isLt, BitVec.ofNat_toNat, BitVec.setWidth_eq]

/-- Settles O5: the placed word is due, and it decodes to the command it encodes. -/
theorem placedCommandRunsNext : Obligations.PlacedCommandRunsNext := by
  unfold Obligations.PlacedCommandRunsNext
  intro s i hi
  rw [State.withFetchWord, tableWord_toNat, step_of_due (State.withCommand_pending ..) (State.withCommand_delay ..),
    completeCommand_ok (decode_encode hi)]
  rfl

/-! ### Frames -/

/-- Settles O31: the clauses of Completed. -/
theorem completionFrame : Obligations.CompletionFrame := by
  unfold Obligations.CompletionFrame
  intro i s t h
  have c := exec_completed h
  exact ⟨c.cmdreg, c.key, c.ovr, c.ie, c.script, c.got, c.lat, c.delay, c.draws, c.pending, c.done, c.outcome⟩

/-- Settles O32: such a command fails or writes RESULT. -/
theorem tableCommandsAndRkreadFrame : Obligations.TableCommandsAndRkreadFrame := by
  unfold Obligations.TableCommandsAndRkreadFrame
  intro i s t hi h
  have hresult := (target_eq_result_iff i).mpr hi
  rcases exec_next_cases h with ⟨e, rfl⟩ | ⟨-, v, rfl⟩ | ⟨hstate, -⟩ | ⟨nk, nr, rfl, -⟩
  · exact ⟨rfl, rfl, fun _ => rfl, rfl, rfl, rfl, rfl, rfl, rfl⟩
  · exact ⟨rfl, rfl, fun _ => rfl, rfl, rfl, rfl, rfl, rfl, rfl⟩
  · rw [hresult] at hstate; cases hstate
  · cases hresult

/-- Settles O34: EXPAND fails or writes the schedule, whose words end at index 4(nr + 1). -/
theorem expandFrame : Obligations.ExpandFrame := by
  unfold Obligations.ExpandFrame
  intro s t nk nr h
  rcases exec_next_cases h with ⟨e, rfl⟩ | ⟨ht, -⟩ | ⟨ht, -⟩ | ⟨nk', nr', hi, hk, rfl⟩
  · exact ⟨rfl, rfl, rfl, rfl, rfl, rfl, fun _ _ => rfl⟩
  · cases ht
  · cases ht
  · obtain ⟨rfl, rfl⟩ := Instr.expand.inj hi
    refine ⟨rfl, rfl, rfl, rfl, rfl, rfl, fun n hn => ?_⟩
    rw [State.completed_rk, State.setSchedule_rk]
    by_cases hlt : n < 60
    · rw [overwriteRk_getElem? _ _ hlt, if_neg (by rw [expandKey_length hk]; omega)]
    · simp [Vector.getElem?_eq_none (Nat.le_of_not_lt hlt)]

/-! ### EXPAND, RKREAD and SHIFTROWS -/

/-- Settles O15: the RAM holds the words of the expansion below their number and its old words above. -/
theorem expandWritesTheSchedule : Obligations.ExpandWritesTheSchedule := by
  unfold Obligations.ExpandWritesTheSchedule
  intro s nk nr h
  have hk := (supportedKey_iff nk nr).mpr h
  refine ⟨overwriteRk (expandKey nk nr s.key) s.rk, ?_, fun i hi => ?_⟩
  · simp only [exec, execExpand, hk, if_true]
    rfl
  · rw [overwriteRk_getElem? _ _ hi, expandKey_length hk]

/-- Settles O17: soundness puts the schedule in the RAM, so RKREAD reads a word of it. -/
theorem rkreadReturnsTheScheduleWord : Obligations.RkreadReturnsTheScheduleWord := by
  unfold Obligations.RkreadReturnsTheScheduleWord
  intro s i hs hk hi
  have hfits := State.scheduleFits_of_sound hs hk
  have hlt : i < 60 := lt_of_lt_of_le hi ((State.scheduleFits_eq_true s).mp hfits)
  refine ⟨s.rk[i], Vector.getElem?_eq_getElem hlt, ?_⟩
  have inside : ¬ i ≥ s.scheduleWords := Nat.not_le_of_lt hi
  rw [exec, execRkread, withSchedule_schedule hk hfits, if_neg inside, State.rkWord_eq s hlt]
  rfl

/-- Four rotations of each row by its number restore it. -/
theorem shiftRows_four (b : Block) : shiftRows (shiftRows (shiftRows (shiftRows b))) = b := by
  refine Block.ext_bytes fun r c => ?_
  have hr : c + r + r + r + r = c := by revert r c; decide
  rw [shiftRows_byte, shiftRows_byte, shiftRows_byte, shiftRows_byte, hr]

/-- Settles O60: the four completions run ShiftRows four times on STATE. -/
theorem shiftrowsFourTimesRestoresState : Obligations.ShiftrowsFourTimesRestoresState := by
  unfold Obligations.ShiftrowsFourTimesRestoresState
  intro s
  refine ⟨_, rfl, ?_⟩
  have hrun : execAll [.shiftrows, .shiftrows, .shiftrows] (s.setState (shiftRows s.state)).completed =
      .next (s.setState (shiftRows (shiftRows (shiftRows (shiftRows s.state))))).completed := rfl
  rw [hrun, shiftRows_four]
  rfl

/-- Settles O35: at reset nothing is pending and KSV, NK, NR and ERRCODE are 0. -/
theorem resetIsSound : Obligations.ResetIsSound := by
  unfold Obligations.ResetIsSound
  exact ⟨rfl, nofun⟩

end Sys2Proof.Machine
end

section
/-! The host's accesses with BUSY = 0, its waits, and the STATUS word (20_memory.md R58, R62, 10_state.md R30). -/

namespace Sys2Proof.Machine

/-! ### The STATUS word, field by field -/

/-- The low part of a concatenation. -/
theorem extractLsb'_zero_append {v w : Nat} (x : BitVec v) (y : BitVec w) : (x ++ y).extractLsb' 0 w = y := by
  rw [BitVec.extractLsb'_append_eq_of_add_le (by omega), BitVec.extractLsb'_eq_self]

/-- Bits 0 to 4 of STATUS are the five flags. -/
theorem statusWord_flags (s : State) :
    s.statusWord.getLsbD 0 = s.busy ∧ s.statusWord.getLsbD 1 = s.done ∧ s.statusWord.getLsbD 2 = s.err ∧
    s.statusWord.getLsbD 3 = s.ovr ∧ s.statusWord.getLsbD 4 = s.ksv := by
  simp only [State.statusWord, BitVec.getLsbD_append]
  simp

/-- Above the flags stand the fields ERRCODE, NK and NR, with reserved bits between them: each is reached by leaving
out the parts below it. -/
theorem statusWord_fields (s : State) :
    s.statusWord.extractLsb' 5 3 = 0 ∧ s.statusWord.extractLsb' 8 4 = s.errcode ∧
    s.statusWord.extractLsb' 12 4 = 0 ∧ s.statusWord.extractLsb' 16 4 = s.nk ∧
    s.statusWord.extractLsb' 20 4 = s.nr ∧ s.statusWord.extractLsb' 24 8 = 0 := by
  rw [State.statusWord]
  refine ⟨?_, ?_, ?_, ?_, ?_, ?_⟩
  all_goals iterate 5 refine (BitVec.extractLsb'_append_eq_of_le (by decide)).trans ?_
  · exact extractLsb'_zero_append _ _
  · iterate 1 refine (BitVec.extractLsb'_append_eq_of_le (by decide)).trans ?_
    exact extractLsb'_zero_append _ _
  · iterate 2 refine (BitVec.extractLsb'_append_eq_of_le (by decide)).trans ?_
    exact extractLsb'_zero_append _ _
  · iterate 3 refine (BitVec.extractLsb'_append_eq_of_le (by decide)).trans ?_
    exact extractLsb'_zero_append _ _
  · iterate 4 refine (BitVec.extractLsb'_append_eq_of_le (by decide)).trans ?_
    exact extractLsb'_zero_append _ _
  · iterate 5 refine (BitVec.extractLsb'_append_eq_of_le (by decide)).trans ?_
    exact BitVec.extractLsb'_eq_self

/-! ### One access -/

/-- With nothing pending the host makes its next access. -/
theorem step_idle_act {s : State} {a : HostAct} {rest : List HostAct} (hp : s.pending = none)
    (hs : s.script = a :: rest) : step s = hostAct a (s.setScript rest) := by
  rw [step_of_idle hp, hostTurn_of_script hs]

/-- While a delay is left the host makes its next access, and the delay is one less. -/
theorem step_delay_act {s : State} {p : Word} {d : Nat} {a : HostAct} {rest : List HostAct} (hp : s.pending = some p)
    (hd : s.delay = d + 1) (hs : s.script = a :: rest) :
    step s = hostAct a ((s.setDelay d).setScript rest) := by
  rw [step_of_delay hp hd, hostTurn_of_script (s := s.setDelay d) hs]

/-- A write at an offset of a register is the write of that register. -/
theorem hostAct_write {off : Byte} {r : HostReg} (hr : hostRegAt off = some r) (v : Word) (s : State) :
    hostAct (.write off v) s = .next (writeReg r v s) := by
  simp only [hostAct, busWrite, hr]

/-- With nothing pending a read delivers the register. -/
theorem hostAct_read_of_idle {off : Byte} {r : HostReg} {s : State} (hp : s.pending = none)
    (hr : hostRegAt off = some r) : hostAct (.read off) s = .next (s.deliver (readReg r s)) := by
  simp only [hostAct, busRead, hr, (State.busy_eq_false s).mpr hp, Bool.false_and, Bool.false_eq_true, if_false]

/-- The CTRL word is CTRL.IE as a number (10_state.md R37). -/
theorem State.ctrlWord_eq (s : State) : s.ctrlWord = if s.ie then 1 else 0 := by
  cases h : s.ie <;> simp [State.ctrlWord, h]

/-- Settles O48, one register after another. -/
theorem idleReadsReturnTheRegister : Obligations.IdleReadsReturnTheRegister := by
  unfold Obligations.IdleReadsReturnTheRegister
  intro s off rest hp hs haligned
  obtain ⟨r, hr⟩ := hostRegAt_of_aligned haligned
  rw [step_idle_act hp hs, hostAct_read_of_idle (s := s.setScript rest) hp hr]
  obtain rfl | ⟨rfl, hn⟩ := offset_of_hostRegAt hr
  · cases r with
    | cmd | status | result | reserved => rfl
    | ctrl => rw [readReg, State.ctrlWord_eq]; rfl
    | state c => fin_cases c <;> rfl
    | key i =>
      have above : ∀ m, m < 0x20 → 0x20 + 4 * i.val ≠ m := by omega
      simp [above, readReg, State.deliver, State.setScript]
  · have above : ∀ m, m < 0x20 → off.toNat ≠ m := by omega
    simp [above, readReg, State.deliver, State.setScript]

/-- Settles O49, one register after another. -/
theorem idleWritesTakeEffect : Obligations.IdleWritesTakeEffect := by
  unfold Obligations.IdleWritesTakeEffect
  intro s off v rest hp hs haligned
  obtain ⟨r, hr⟩ := hostRegAt_of_aligned haligned
  have accepted := unlessBusy_of_idle (s := s.setScript rest) hp
  rw [step_idle_act hp hs, hostAct_write hr]
  obtain rfl | ⟨rfl, hn⟩ := offset_of_hostRegAt hr
  · cases r with
    | cmd => rw [writeReg, accepted]; rfl
    | status | ctrl | result | reserved => rfl
    | state c => rw [writeReg, accepted]; fin_cases c <;> rfl
    | key i =>
      have hi := i.isLt
      have above : ∀ m, m < 0x20 → 0x20 + 4 * i.val ≠ m := by omega
      have within : 0x20 + 4 * i.val ≤ 0x3C := by omega
      have same : s.key.set i v = s.key.setIfInBounds i v := by
        ext j hj
        rw [Vector.getElem_set, Vector.getElem_setIfInBounds]
      rw [writeReg, accepted]
      simp [above, within, State.setScript, State.setKeyWord, same]
  · have above : ∀ m, m < 0x20 → off.toNat ≠ m := by omega
    have beyond : ¬ off.toNat ≤ 0x3C := by omega
    simp [above, beyond, writeReg, State.setScript]

/-- Settles O53: the fields of the word, and the acknowledge write at both of the host's turns. -/
theorem statusWordFields : Obligations.StatusWordFields := by
  unfold Obligations.StatusWordFields
  refine ⟨fun s => ?_, fun s v rest hp hs => ?_, fun s p v d rest hp hd hs => ?_⟩
  · obtain ⟨hbusy, hdone, herr, hovr, hksv⟩ := statusWord_flags s
    refine ⟨?_, hdone, herr, hovr, hksv, statusWord_fields s⟩
    rw [hbusy, State.busy_eq_true, Option.ne_none_iff_exists']
  · rw [step_idle_act hp hs, hostAct_write (r := .status) rfl]
    rfl
  · rw [step_delay_act hp hd hs, hostAct_write (r := .status) rfl]
    rfl

/-! ### Waiting -/

/-- A poll of WAIT with nothing pending reads STATUS and ends. -/
theorem pollStatus_of_idle {s : State} (hp : s.pending = none) : pollStatus s = s.deliver s.statusWord := by
  have low : s.statusWord.getLsbD 0 = false := (statusWord_flags s).1.trans ((State.busy_eq_false s).mpr hp)
  simp only [pollStatus, low, Bool.false_eq_true, if_false]

/-- A poll of WAIT while a command is pending reads STATUS and goes on. -/
theorem pollStatus_of_busy {s : State} {p : Word} (hp : s.pending = some p) :
    pollStatus s = (s.deliver s.statusWord).setScript (.wait :: s.script) := by
  have high : s.statusWord.getLsbD 0 = true := (statusWord_flags s).1.trans ((State.busy_eq_true s).mpr ⟨p, hp⟩)
  simp only [pollStatus, high, if_true]

/-- Settles O52: a poll goes on exactly while BUSY, or while irq is low. -/
theorem hostWaits : Obligations.HostWaits := by
  unfold Obligations.HostWaits
  refine ⟨fun s rest hs hp => ?_, fun s rest p d hs hp hd => ?_, fun s rest hs hp => ?_, fun s hs hp => ?_⟩
  · rw [step_idle_act hp hs, hostAct, pollStatus_of_idle (s := s.setScript rest) hp]
    rfl
  · rw [step_delay_act hp hd hs, hostAct, pollStatus_of_busy (s := (s.setDelay d).setScript rest) hp,
      State.setScript_script, ← hs]
    rfl
  · rw [step_idle_act hp hs, hostAct, pollIrq]
    cases hie : s.ie <;> cases hdone : s.done <;> simp [State.irq, State.setScript, hie, hdone]
  · simp only [step_of_idle hp, hostTurn, hs]

end Sys2Proof.Machine
end

section
/-! LOADSTATE and LOADKEY: runs of register writes, and the bytes they put where (20_memory.md R53, R54,
30_encoding.md R79). -/

namespace Sys2Proof.Machine

/-! ### The bytes of words -/

/-- Byte 4i + j of the bytes of words is byte j of word i. -/
theorem bytesOfWords_getElem? (ws : List Word) (i : Nat) (j : Fin 4) :
    (bytesOfWords ws)[4 * i + j.val]? = ws[i]?.map (byteAt j) := by
  induction ws generalizing i with
  | nil => simp
  | cons w ws ih =>
    cases i with
    | zero => fin_cases j <;> rfl
    | succ i =>
      rw [bytesOfWords_cons, show 4 * (i + 1) + j.val = 4 * i + j.val + 1 + 1 + 1 + 1 by omega]
      simp only [List.getElem?_cons_succ, ih]

theorem bytesOfWords_length (ws : List Word) : (bytesOfWords ws).length = 4 * ws.length := by
  induction ws with
  | nil => rfl
  | cons w ws ih => simp only [bytesOfWords_cons, List.length_cons, ih]; omega

/-- A byte string of whole words is the bytes of its words. -/
theorem exists_words_of_bytes {b : List Byte} (h : b.length % 4 = 0) :
    ∃ ws, wordsOfBytes b = ws ∧ b = bytesOfWords ws ∧ ws.length = b.length / 4 := by
  have hb := bytesOfWords_wordsOfBytes b h
  refine ⟨_, rfl, hb.symm, ?_⟩
  have hlen := bytesOfWords_length (wordsOfBytes b)
  rw [hb] at hlen
  omega

/-! ### LOADSTATE -/

/-- With nothing pending the four writes of LOADSTATE put their words into STATE0 to STATE3. -/
theorem run_loadState (s : State) (w0 w1 w2 w3 : Word) (rest : List HostAct) (hp : s.pending = none)
    (hs : s.script = asmLoadState (bytesOfWords [w0, w1, w2, w3]) ++ rest) :
    Host.Core.run Sys2Proof.core 4 s = .next { s with script := rest, state := ⟨w0, w1, w2, w3⟩ } := by
  rw [asmLoadState, wordsOfBytes_bytesOfWords] at hs
  cases s
  cases hp
  cases hs
  rfl

/-- Settles O58: the block's sixteen bytes are four words, one for each column. -/
theorem loadstateFillsTheBlockColumnByColumn : Obligations.LoadstateFillsTheBlockColumnByColumn := by
  unfold Obligations.LoadstateFillsTheBlockColumnByColumn
  intro s b rest hp hb hs
  obtain ⟨ws, -, rfl, hlen⟩ := exists_words_of_bytes (b := b) (by omega)
  rw [hb] at hlen
  match ws, hlen with
  | [w0, w1, w2, w3], _ =>
    refine ⟨⟨w0, w1, w2, w3⟩, run_loadState s w0 w1 w2 w3 rest hp hs, fun r c => ?_⟩
    exact (bytesOfWords_block ⟨w0, w1, w2, w3⟩ r c).symm

/-! ### LOADKEY -/

/-- With nothing pending a KEY write sets its word. -/
theorem step_keyWrite {s : State} {i : Fin 8} {w : Word} {rest : List HostAct} (hp : s.pending = none)
    (hs : s.script = .write (HostReg.key i).offset w :: rest) :
    step s = .next ((s.setScript rest).setKeyWord i w) := by
  rw [step_idle_act hp hs, hostAct_write (hostRegAt_offset _), writeReg,
    unlessBusy_of_idle (s := s.setScript rest) hp]

/-- The writes of words to KEYn, KEY(n+1) and on. -/
def keyWrites : List Word → Nat → List HostAct
  | [], _ => []
  | w :: ws, n => .write (HostReg.key (Fin.ofNat 8 n)).offset w :: keyWrites ws (n + 1)

/-- LOADKEY writes its words from KEY0 on. -/
theorem asmLoadKey_eq_keyWrites (k : List Byte) : asmLoadKey k = keyWrites (wordsOfBytes k) 0 := by
  have from_n : ∀ (ws : List Word) (n : Nat),
      ((ws.zipIdx n).flatMap fun (w, i) => asmWr (.key (Fin.ofNat 8 i)) w) = keyWrites ws n := by
    intro ws
    induction ws with
    | nil => exact fun _ => rfl
    | cons w ws ih => exact fun n => congrArg (_ :: ·) (ih (n + 1))
  exact from_n (wordsOfBytes k) 0

/-- With nothing pending the writes of words to KEYn and on put word i into KEY(n+i) and leave the other KEY words. -/
theorem run_loadKeyWords (ws : List Word) (n : Nat) (s : State) (rest : List HostAct) (hp : s.pending = none)
    (hn : n + ws.length ≤ 8)
    (hs : s.script = keyWrites ws n ++ rest) :
    ∃ key' : Vector Word 8,
      Host.Core.run Sys2Proof.core ws.length s = .next { s with script := rest, key := key' } ∧
      (∀ i, i < ws.length → key'[n + i]? = ws[i]?) ∧
      (∀ i, i < n ∨ n + ws.length ≤ i → key'[i]? = s.key[i]?) := by
  induction ws generalizing n s with
  | nil =>
    obtain rfl : s.script = rest := hs
    exact ⟨s.key, rfl, nofun, fun _ _ => rfl⟩
  | cons w ws ih =>
    simp only [List.length_cons] at hn
    have hstep := step_keyWrite (rest := keyWrites ws (n + 1) ++ rest) hp hs
    have hindex : (Fin.ofNat 8 n).val = n := Nat.mod_eq_of_lt (by omega)
    obtain ⟨key', hrun, hin, hout⟩ := ih (n + 1)
      ((s.setScript (keyWrites ws (n + 1) ++ rest)).setKeyWord (Fin.ofNat 8 n) w) hp (by omega) rfl
    have hkey : ∀ i, i ≤ n ∨ n + 1 + ws.length ≤ i → key'[i]? = if n = i then some w else s.key[i]? := by
      intro i hi
      rw [hout i (by omega), State.setKeyWord_key, Vector.getElem?_set, hindex]
      rfl
    refine ⟨key', (run_succ_of_step hstep _).trans hrun, fun i hi => ?_, fun i hi => ?_⟩
    · cases i with
      | zero => rw [hkey _ (by omega), if_pos (by omega)]; rfl
      | succ i =>
        rw [List.getElem?_cons_succ, ← hin i (by simpa using hi)]
        congr 1
        omega
    · simp only [List.length_cons] at hi
      rw [hkey i (by omega), if_neg (by omega)]

/-- Settles O59: the key's bytes are len/4 words, written from KEY0 on. -/
theorem loadkeyFillsTheKeyWords : Obligations.LoadkeyFillsTheKeyWords := by
  unfold Obligations.LoadkeyFillsTheKeyWords
  intro s k rest hp hlength hs
  obtain ⟨ws, hws, hk, hlen⟩ := exists_words_of_bytes (b := k) (by omega)
  rw [asmLoadKey_eq_keyWrites, hws] at hs
  obtain ⟨key', hrun, hin, hout⟩ := run_loadKeyWords ws 0 s rest hp (by omega) hs
  rw [← hlen]
  refine ⟨key', hrun, fun i j hi => ?_, fun i hi => hout i (by omega)⟩
  have hword := hin i hi
  rw [Nat.zero_add] at hword
  rw [hword, hk, bytesOfWords_getElem?]

end Sys2Proof.Machine
end

section
/-! The stops of a sound state, and the completion of every accepted command (20_memory.md R55, R60, 60_exceptions.md
R180). -/

namespace Sys2Proof.Machine

/-! ### Steps that answer, and the one refusal -/

/-- An access off a word boundary is refused (20_memory.md R55). -/
theorem hostAct_misaligned {off : Byte} {a : HostAct} (h : off.toNat % 4 ≠ 0)
    (ha : a = .read off ∨ ∃ v, a = .write off v) (s : State) : hostAct a s = .refused .misalignedAccess := by
  have hr := (hostRegAt_eq_none off).mpr h
  obtain rfl | ⟨v, rfl⟩ := ha
  · simp only [hostAct, busRead, hr]
  · simp only [hostAct, busWrite, hr]

/-- Settles O51: at the host's turn the step is its access. -/
theorem misalignedAccessIsRefused : Obligations.MisalignedAccessIsRefused := by
  unfold Obligations.MisalignedAccessIsRefused
  rintro s off rest h (hd | ⟨v, hd⟩) <;> obtain ⟨d, e⟩ := hd.step_eq
  · exact e.trans (hostAct_misaligned h (.inl rfl) _)
  · exact e.trans (hostAct_misaligned h (.inr ⟨v, rfl⟩) _)

/-- A host access answers, or is one off a word boundary. -/
theorem hostAct_answers_or_misaligned (a : HostAct) (s : State) :
    (∃ t, hostAct a s = .next t) ∨ ∃ off : Byte, off.toNat % 4 ≠ 0 ∧ (a = .read off ∨ ∃ v, a = .write off v) := by
  rcases hostAct_cases a s with ⟨off, ha, hr, -⟩ | ⟨_, _, -, e⟩ | ⟨_, -, e⟩ | ⟨_, _, _, -, -, e⟩ | ⟨-, e⟩ | ⟨-, e⟩ |
    ⟨-, e⟩
  · exact .inr ⟨off, (hostRegAt_eq_none off).mp hr, ha⟩
  all_goals exact .inl ⟨_, e⟩

/-- In a sound state every command answers: the schedule lies in the round-key RAM (log entry 7). -/
theorem exec_answers {s : State} (hs : s.sound = true) (i : Instr) : ∃ t, exec i s = .next t := by
  rcases exec_cases i s with ⟨hk, hf, -⟩ | ⟨_, e⟩ | ⟨_, e⟩ | ⟨_, e⟩ | ⟨_, _, -, -, e⟩
  · simp [State.scheduleFits_of_sound hs hk] at hf
  all_goals exact ⟨_, e⟩

/-- In a sound state every completion answers, also that of a word that does not decode. -/
theorem completeCommand_answers {s : State} (hs : s.sound = true) (v : Word) : ∃ t, completeCommand v s = .next t := by
  rcases completeCommand_cases v s with ⟨i, -, e⟩ | ⟨_, -, e⟩
  · exact e ▸ exec_answers hs i
  · exact ⟨_, e⟩

/-- The host's next action is an access off a word boundary, and it is the host's turn. -/
def State.hostMisaligned (s : State) : Prop :=
  ∃ (off : Byte) (rest : List HostAct), off.toNat % 4 ≠ 0 ∧
    (s.hostDoes (.read off) rest ∨ ∃ v, s.hostDoes (.write off v) rest)

/-- A host's turn answers, or the host is about to make an access off a word boundary. -/
theorem hostTurn_answers_or_misaligned {s : State} (turn : s.pending = none ∨ s.delay ≠ 0) (d : Nat) :
    (∃ t, hostTurn (s.setDelay d) = .next t) ∨ s.hostMisaligned := by
  rcases hostTurn_cases (s.setDelay d) with ⟨-, e⟩ | ⟨a, rest, hs, e⟩
  · exact .inl ⟨_, e⟩
  · rw [e]
    refine (hostAct_answers_or_misaligned a ((s.setDelay d).setScript rest)).imp_right ?_
    rintro ⟨off, h, rfl | ⟨v, rfl⟩⟩
    · exact ⟨off, rest, h, .inl ⟨hs, turn⟩⟩
    · exact ⟨off, rest, h, .inr ⟨v, hs, turn⟩⟩

/-- A step of a sound state answers, or the host is about to make an access off a word boundary. -/
theorem step_answers_or_misaligned {s : State} (hs : s.sound = true) :
    (∃ t, step s = .next t) ∨ s.hostMisaligned := by
  rcases step_cases s with ⟨hp, e⟩ | ⟨v, d, -, hd, e⟩ | ⟨v, -, -, e⟩ <;> rw [e]
  · exact hostTurn_answers_or_misaligned (.inl hp) s.delay
  · exact hostTurn_answers_or_misaligned (.inr (by simp [hd])) d
  · exact .inl (completeCommand_answers hs v)

/-- Settles O38: a sound state's step answers, or is the refusal of O51. -/
theorem onlyAMisalignedAccessStopsASoundState : Obligations.OnlyAMisalignedAccessStopsASoundState := by
  unfold Obligations.OnlyAMisalignedAccessStopsASoundState
  intro s hs
  rcases step_answers_or_misaligned hs with ⟨t, e⟩ | ⟨off, rest, h, hd⟩
  · simp [e]
  · have e := misalignedAccessIsRefused s off rest h hd
    refine ⟨by simp [e], fun r hr => ⟨?_, off, rest, h, hd⟩⟩
    rw [e] at hr
    exact (Host.Outcome.refused.inj hr).symm

/-! ### Runs -/

/-- A run that answers begins with a step that answers. -/
theorem step_of_run_succ {n : Nat} {s t : State} (h : Host.Core.run Sys2Proof.core (n + 1) s = .next t) :
    ∃ u, step s = .next u ∧ Host.Core.run Sys2Proof.core n u = .next t := by
  simp only [Host.Core.run] at h
  split at h
  next u hu => exact ⟨u, hu, h⟩
  all_goals cases h

/-- A run that answers and one more step. -/
theorem run_succ_of_run {n : Nat} {s t u : State} (hrun : Host.Core.run Sys2Proof.core n s = .next t)
    (hstep : step t = .next u) : Host.Core.run Sys2Proof.core (n + 1) s = .next u := by
  induction n generalizing s with
  | zero =>
    obtain rfl := Host.Outcome.next.inj hrun
    exact run_succ_of_step hstep 0
  | succ n ih =>
    obtain ⟨w, hw, hrest⟩ := step_of_run_succ hrun
    exact (run_succ_of_step hw (n + 1)).trans (ih hrest)

/-- A run from a sound state ends in one. -/
theorem run_keeps_sound {n : Nat} {s t : State} (hs : s.sound = true)
    (h : Host.Core.run Sys2Proof.core n s = .next t) : t.sound = true := by
  induction n generalizing s with
  | zero => exact Host.Outcome.next.inj h ▸ hs
  | succ n ih =>
    obtain ⟨u, hu, hrest⟩ := step_of_run_succ h
    exact ih (stepKeepsSound s u hs hu) hrest

/-- Settles O46: the command is due after its delay, in a sound state, where its completion answers. -/
theorem everyAcceptedCommandCompletes : Obligations.EveryAcceptedCommandCompletes := by
  unfold Obligations.EveryAcceptedCommandCompletes
  intro s v hs hp haligned hreset
  obtain ⟨t, hrun, hdue, kept⟩ := run_delay_inputsKept s.delay hp rfl ⟨haligned, hreset⟩
  have hpt : t.pending = some v := kept.pending.trans hp
  have hst : t.sound = true := run_keeps_sound hs hrun
  obtain ⟨pendingInCmdreg, -⟩ := t.sound_iff.mp hst
  obtain ⟨hcmd, -⟩ := pendingInCmdreg v hpt
  obtain ⟨u, hu⟩ := completeCommand_answers hst v
  have done := completeCommand_completed hu
  exact ⟨u, run_succ_of_run hrun ((step_of_due hpt hdue).trans hu), done.pending, done.done, done.cmdreg.trans hcmd⟩

end Sys2Proof.Machine
end

section
/-! The host's accesses with BUSY = 1 (20_memory.md R59). -/

namespace Sys2Proof.Machine

/-- A read while a command is pending: STATE and RESULT return the next free draw, any other register what it holds. -/
theorem hostAct_read_of_pending {off : Byte} {r : HostReg} {s : State} {p : Word} (hp : s.pending = some p)
    (hr : hostRegAt off = some r) :
    hostAct (.read off) s = .next (if unstableWhileBusy r then s.deliverFree else s.deliver (readReg r s)) := by
  simp only [hostAct, busRead, hr, (State.busy_eq_true s).mpr ⟨p, hp⟩, Bool.true_and]

/-- Settles O50, one register after another. -/
theorem busyHostAccesses : Obligations.BusyHostAccesses := by
  unfold Obligations.BusyHostAccesses
  refine ⟨fun s p d off v rest hp hd hs haligned => ?_, fun s p d off rest hp hd hs haligned => ?_⟩ <;>
    obtain ⟨r, hr⟩ := hostRegAt_of_aligned haligned
  · have dropped := unlessBusy_of_pending (s := (s.setDelay d).setScript rest) hp
    rw [step_delay_act hp hd hs, hostAct_write hr]
    obtain rfl | ⟨rfl, hn⟩ := offset_of_hostRegAt hr
    · cases r with
      | cmd => rw [writeReg, dropped]; rfl
      | status | ctrl | result | reserved => rfl
      | state c => rw [writeReg, dropped]; fin_cases c <;> rfl
      | key i => rw [writeReg, dropped]; fin_cases i <;> rfl
    · have above : ∀ m, m < 0x10 → off.toNat ≠ m := by omega
      have beyond : ¬ off.toNat ≤ 0x3C := by omega
      simp [above, beyond, writeReg, State.setScript, State.setDelay]
  · rw [step_delay_act hp hd hs, hostAct_read_of_pending (s := (s.setDelay d).setScript rest) hp hr]
    obtain rfl | ⟨rfl, hn⟩ := offset_of_hostRegAt hr
    · cases r with
      | cmd | status | result | reserved => rfl
      | ctrl => rw [readReg, State.ctrlWord_eq]; rfl
      | state c => fin_cases c <;> rfl
      | key i => fin_cases i <;> rfl
    · have above : ∀ m, m < 0x20 → off.toNat ≠ m := by omega
      have beyond : ¬ off.toNat ≤ 0x1C := by omega
      simp [above, beyond, unstableWhileBusy, readReg, State.deliver, State.setScript, State.setDelay]

end Sys2Proof.Machine
end

section
/-! The encoding (30_encoding.md R70 to R77): the round trip both ways, the words the spec writes out, and the
unassigned opcodes. -/

namespace Sys2Proof.Machine

/-! ### The round trip from a command -/

/-- Settles O1: `decode_encode`, row by row of the opcode map. -/
theorem decodeEncodeRoundTrip : Obligations.DecodeEncodeRoundTrip := by
  unfold Obligations.DecodeEncodeRoundTrip
  exact fun i hi => decode_encode hi

/-- Settles O3: each word is the encoding of its command. -/
theorem specCommandWordsDecode : Obligations.SpecCommandWordsDecode := by
  unfold Obligations.SpecCommandWordsDecode
  exact ⟨decode_encode (i := .sbox 0x53) rfl, decode_encode (i := .mulc 0x57 0x02) rfl,
    decode_encode (i := .expand 4 10) rfl, decode_encode (i := .rkread 43) rfl, decode_encode (i := .mixcolumns) rfl,
    decode_encode (i := .addrk 1) rfl, decode_encode (i := .invshiftrows) rfl, decode_encode (i := .encrypt) rfl,
    decode_encode (i := .decrypt) rfl⟩

/-! ### The opcode map -/

/-- An assigned opcode and its mnemonic are a row of the map. -/
theorem mem_opcodeMap_of_mnemonicAt {o : Byte} {m : Mnemonic} (h : mnemonicAt o = some m) : (o, m) ∈ opcodeMap := by
  obtain ⟨before, after, hmap, -⟩ := List.lookup_eq_some_iff.mp h
  rw [hmap]
  exact List.mem_append_right before List.mem_cons_self

/-- An opcode of no row is unassigned. -/
theorem mnemonicAt_eq_none_iff (o : Byte) : mnemonicAt o = none ↔ ∀ p ∈ opcodeMap, o ≠ p.1 := by
  simp only [mnemonicAt, List.lookup_eq_none_iff, bne_iff_ne]

/-! ### The round trip from a word -/

/-- A command built from operand bytes is well formed (30_encoding.md R71). -/
theorem wellFormed_buildCommand (m : Mnemonic) (a b : Byte) : (buildCommand m a b).wellFormed = true := by
  have fits (c : Byte) : fitsByte c.toNat = true := decide_eq_true c.isLt
  cases m
  case expand => exact Bool.and_eq_true_iff.mpr ⟨fits a, fits b⟩
  case rkread | addrk => exact fits a
  all_goals rfl

/-- The command of a row is encoded as the row's opcode and operand bytes, a reserved one as 0 (30_encoding.md R72). -/
theorem encode_buildCommand {o : Byte} {m : Mnemonic} (row : (o, m) ∈ opcodeMap) (a b : Byte) :
    encode (buildCommand m a b) =
      commandWord o (if reservesA (formatOf m) then 0 else a) (if reservesB (formatOf m) then 0 else b) := by
  fin_cases row <;> simp [buildCommand, encode, formatOf, reservesA, reservesB]

/-- The reserved fields are 0 (30_encoding.md R76). -/
theorem reservedNonzero_eq_false_iff (f : Format) (v : Word) :
    reservedNonzero f v = false ↔
      fieldZ v = 0 ∧ (reservesA f = true → fieldA v = 0) ∧ (reservesB f = true → fieldB v = 0) := by
  cases hA : reservesA f <;> cases hB : reservesB f <;> simp [reservedNonzero, hA, hB, and_assoc]

/-- Settles O2: the three fields of the word are those of the encoding, and Z is 0. -/
theorem decodedWordIsItsEncoding : Obligations.DecodedWordIsItsEncoding := by
  unfold Obligations.DecodedWordIsItsEncoding
  intro v i h
  obtain ⟨m, hm, hreserved, rfl⟩ := (decode_eq_ok_iff v i).mp h
  obtain ⟨hz, ha, hb⟩ := (reservedNonzero_eq_false_iff _ v).mp hreserved
  refine ⟨wellFormed_buildCommand m _ _, ?_⟩
  rw [encode_buildCommand (mem_opcodeMap_of_mnemonicAt hm), ite_eq_right_iff.mpr fun r => (ha r).symm,
    ite_eq_right_iff.mpr fun r => (hb r).symm, commandWord_fields hz]

/-! ### Unassigned opcodes -/

/-- The opcode values 30_encoding.md R75 lists as unassigned. -/
abbrev UnassignedOpcode (o : Nat) : Prop :=
  o = 0x00 ∨ (0x05 ≤ o ∧ o ≤ 0x0F) ∨ (0x12 ≤ o ∧ o ≤ 0x1F) ∨ (0x24 ≤ o ∧ o ≤ 0x27) ∨ (0x2B ≤ o ∧ o ≤ 0x2F) ∨ 0x32 ≤ o

/-- No row of the opcode map has an opcode of R75. -/
theorem mnemonicAt_eq_none_of_unassigned {o : Byte} (h : UnassignedOpcode o.toNat) : mnemonicAt o = none := by
  have assigned : ∀ p ∈ opcodeMap, ¬ UnassignedOpcode p.1.toNat := by decide
  rw [mnemonicAt_eq_none_iff]
  rintro p hp rfl
  exact assigned p hp h

/-- Settles O6: the word does not decode, whatever its other fields hold. -/
theorem unassignedOpcodeCompletesWithError1 : Obligations.UnassignedOpcodeCompletesWithError1 := by
  unfold Obligations.UnassignedOpcodeCompletesWithError1
  intro s v hp hd hopc
  have hnone : mnemonicAt (fieldOpc v) = none :=
    mnemonicAt_eq_none_of_unassigned (by rw [fieldOpc_toNat]; exact hopc)
  have hdecode : decode v = .error .illegalOpcode := (decode_eq_error_iff v _).mpr (.inl ⟨hnone, rfl⟩)
  rw [step_of_due hp hd, completeCommand_error hdecode]
  rfl

end Sys2Proof.Machine
end

section
/-! Multiplication in GF(2^8) (41_gf_tables.md R90 to R93): it is additive, commutative and associative with unit 1, and
an inverse is unique. All of it follows from two facts about doubling: `xtime` is additive, so multiplication by a fixed
byte is additive and commutes with doubling, hence with the loop of another multiplication. -/

namespace Sys2Proof.Machine

/-! ### Doubling -/

/-- Doubling within a byte: the shifted-out bit becomes 0x1B, the low byte of 0x11B (41_gf_tables.md R91). -/
theorem xtime_eq (a : Byte) : xtime a = a <<< 1 ^^^ if a.msb then 0x1B else 0 := by
  revert a
  decide +kernel

/-- Doubling is additive. -/
theorem xtime_xor (a b : Byte) : xtime (a ^^^ b) = xtime a ^^^ xtime b := by
  have carry : (if (a ^^^ b).msb then 0x1B else 0 : Byte) =
      (if a.msb then 0x1B else 0) ^^^ if b.msb then 0x1B else 0 := by
    rw [BitVec.msb_xor]
    cases a.msb <;> cases b.msb <;> rfl
  rw [xtime_eq, xtime_eq, xtime_eq, carry, BitVec.shiftLeft_xor_distrib]
  ac_rfl

/-! ### Multiplication -/

/-- The loop is additive in its partial sum and doubled operand together. -/
theorem gmulLoop_xor (m : Byte) (is : List Nat) (r r' p p' : Byte) :
    gmulLoop m is (r ^^^ r') (p ^^^ p') = gmulLoop m is r p ^^^ gmulLoop m is r' p' := by
  induction is generalizing r r' p p' with
  | nil => rfl
  | cons i is ih =>
    have sum : (if m.getLsbD i then (r ^^^ r') ^^^ (p ^^^ p') else r ^^^ r') =
        (if m.getLsbD i then r ^^^ p else r) ^^^ (if m.getLsbD i then r' ^^^ p' else r') := by
      split
      · ac_rfl
      · rfl
    simp only [gmulLoop, sum, xtime_xor, ih]

/-- A map of bytes that is additive and commutes with doubling commutes with the loop. -/
theorem map_gmulLoop {f : Byte → Byte} (hxor : ∀ a b, f (a ^^^ b) = f a ^^^ f b)
    (hxtime : ∀ a, f (xtime a) = xtime (f a)) (m : Byte) (is : List Nat) (r p : Byte) :
    f (gmulLoop m is r p) = gmulLoop m is (f r) (f p) := by
  induction is generalizing r p with
  | nil => rfl
  | cons i is ih => simp only [gmulLoop, ih, hxtime, apply_ite f, hxor]

/-- Multiplication is additive in its first operand. -/
theorem xor_gmul (a b m : Byte) : gmul (a ^^^ b) m = gmul a m ^^^ gmul b m :=
  gmulLoop_xor m _ 0 0 a b

/-- Doubling an operand doubles the product. -/
theorem xtime_gmul (a m : Byte) : gmul (xtime a) m = xtime (gmul a m) :=
  (map_gmulLoop xtime_xor (fun _ => rfl) m _ 0 a).symm

@[simp] theorem zero_gmul (m : Byte) : gmul 0 m = 0 := by
  have h := xor_gmul 0 0 m
  rwa [BitVec.xor_self, BitVec.xor_self] at h

@[simp] theorem one_gmul (m : Byte) : gmul 1 m = m := by
  revert m
  decide +kernel

/-- Two multiplications can be done in either order. -/
theorem gmul_right_comm (a b c : Byte) : gmul (gmul a b) c = gmul (gmul a c) b := by
  have h := map_gmulLoop (f := (gmul · c)) (xor_gmul · · c) (xtime_gmul · c) b [0, 1, 2, 3, 4, 5, 6, 7] 0 a
  rwa [zero_gmul] at h

theorem gmul_comm (a b : Byte) : gmul a b = gmul b a := by
  have h := gmul_right_comm 1 a b
  rwa [one_gmul, one_gmul] at h

/-- Multiplication is additive in its second operand. -/
theorem gmul_xor (a m n : Byte) : gmul a (m ^^^ n) = gmul a m ^^^ gmul a n := by
  rw [gmul_comm, xor_gmul, gmul_comm m, gmul_comm n]

theorem gmul_assoc (a b c : Byte) : gmul (gmul a b) c = gmul a (gmul b c) := by
  rw [gmul_comm a b, gmul_right_comm, gmul_comm]

@[simp] theorem gmul_one (a : Byte) : gmul a 1 = a := by rw [gmul_comm, one_gmul]

/-- A byte has at most one multiplicative inverse. -/
theorem eq_of_gmul_eq_one {x y z : Byte} (hy : gmul x y = 1) (hz : gmul x z = 1) : z = y :=
  calc z = gmul (gmul x y) z := by rw [hy, one_gmul]
    _ = gmul (gmul x z) y := gmul_right_comm x y z
    _ = y := by rw [hz, one_gmul]

/-! ### Squaring and the 254th power -/

/-- The square of a byte in the field. -/
def gsquare (x : Byte) : Byte := gmul x x

/-- Squaring is additive: the mixed products cancel. -/
theorem gsquare_xor (a b : Byte) : gsquare (a ^^^ b) = gsquare a ^^^ gsquare b :=
  calc gsquare (a ^^^ b) = gmul a (a ^^^ b) ^^^ gmul b (a ^^^ b) := xor_gmul a b _
    _ = (gsquare a ^^^ gmul a b) ^^^ (gmul a b ^^^ gsquare b) := by
      rw [gmul_xor, gmul_xor, gmul_comm b a, gsquare, gsquare]
    _ = gsquare a ^^^ gsquare b := by
      rw [BitVec.xor_assoc, ← BitVec.xor_assoc (gmul a b), BitVec.xor_self, BitVec.zero_xor]

theorem gsquare_gmul (a b : Byte) : gsquare (gmul a b) = gmul (gsquare a) (gsquare b) := by
  rw [gsquare, ← gmul_assoc, gmul_right_comm a b a, gmul_assoc, gsquare, gsquare]

theorem iterate_gsquare_xor (n : Nat) (a b : Byte) : gsquare^[n] (a ^^^ b) = gsquare^[n] a ^^^ gsquare^[n] b := by
  induction n generalizing a b with
  | zero => rfl
  | succ n ih => simp only [Function.iterate_succ_apply, gsquare_xor, ih]

/-- The 256th power of a byte is the byte: squaring is additive, so it is enough that it holds of the nibbles. -/
theorem iterate_gsquare_eight (x : Byte) : gsquare^[8] x = x := by
  have nibbles : x = (x.extractLsb' 4 4 ++ 0#4) ^^^ (0#4 ++ x.extractLsb' 0 4) := by
    revert x
    decide +kernel
  have high : ∀ h : BitVec 4, gsquare^[8] (h ++ 0#4) = h ++ 0#4 := by decide +kernel
  have low : ∀ l : BitVec 4, gsquare^[8] (0#4 ++ l) = 0#4 ++ l := by decide +kernel
  rw [nibbles, iterate_gsquare_xor, high, low]

/-- After n rounds of squaring and multiplying from r, one more factor a makes the 2^n-th power of r a. -/
theorem gpow_replicate_true_gmul (a r : Byte) (n : Nat) :
    gmul (gpow a (List.replicate n true) r) a = gsquare^[n] (gmul r a) := by
  induction n generalizing r with
  | zero => rfl
  | succ n ih =>
    have step : gpow a (List.replicate (n + 1) true) r = gpow a (List.replicate n true) (gmul (gsquare r) a) := rfl
    rw [step, ih, gmul_assoc, ← gsquare, ← gsquare_gmul, Function.iterate_succ_apply]

@[simp] theorem fieldInverse_zero : fieldInverse 0 = 0 := rfl

/-- The inverse times the square is the byte: a^254 a^2 = a^256 (41_gf_tables.md R93). -/
theorem fieldInverse_gmul_gsquare {a : Byte} (h : a ≠ 0) : gmul (fieldInverse a) (gsquare a) = a := by
  have power : fieldInverse a = gsquare (gpow a (List.replicate 7 true) 1) := by
    rw [fieldInverse, if_neg h]
    rfl
  rw [power, ← gsquare_gmul, gpow_replicate_true_gmul, one_gmul, ← Function.iterate_succ_apply' gsquare 7,
    iterate_gsquare_eight]

end Sys2Proof.Machine
end

section
/-! The table ROMs hold the values of 41_gf_tables.md R95 to R97 (R99), entry by entry, and the commands that read them.
The contents are data, so each lemma about a ROM checks its 256 entries. -/

namespace Sys2Proof.Machine

/-! ### The inverse table -/

/-- The product of a byte and its entry in GINV (41_gf_tables.md R93). -/
theorem gmul_ginv {x : Byte} (h : x ≠ 0) : gmul x (ginv x) = 1 := by
  revert x
  decide +kernel

/-- The 254th power of a byte is its inverse: a byte with an inverse can be cancelled in a^254 a a = a. -/
theorem gmul_fieldInverse {x : Byte} (h : x ≠ 0) : gmul x (fieldInverse x) = 1 :=
  calc gmul x (fieldInverse x) = gmul (gmul x (fieldInverse x)) (gmul x (ginv x)) := by rw [gmul_ginv h, gmul_one]
    _ = gmul (gmul (fieldInverse x) (gsquare x)) (ginv x) := by
      rw [gmul_comm x (fieldInverse x), gsquare, gmul_assoc, gmul_assoc, gmul_assoc]
    _ = 1 := by rw [fieldInverse_gmul_gsquare h, gmul_ginv h]

/-- GINV holds the 254th powers (41_gf_tables.md R93, R97). -/
theorem ginv_eq_fieldInverse (x : Byte) : ginv x = fieldInverse x := by
  by_cases h : x = 0
  · subst h
    rfl
  · exact eq_of_gmul_eq_one (gmul_fieldInverse h) (gmul_ginv h)

theorem fieldInverse_ne_zero {x : Byte} (h : x ≠ 0) : fieldInverse x ≠ 0 := by
  intro h0
  have hone := gmul_fieldInverse h
  rw [h0, gmul_comm, zero_gmul] at hone
  exact absurd hone (by decide)

/-- Inverting twice restores the byte: both it and its double inverse are inverses of its inverse. -/
@[simp] theorem fieldInverse_fieldInverse (x : Byte) : fieldInverse (fieldInverse x) = x := by
  by_cases h : x = 0
  · rw [h, fieldInverse_zero, fieldInverse_zero]
  · have hx : gmul (fieldInverse x) x = 1 := by rw [gmul_comm, gmul_fieldInverse h]
    exact eq_of_gmul_eq_one hx (gmul_fieldInverse (fieldInverse_ne_zero h))

/-! ### The S-box tables -/

/-- The inverse of the affine transformation (41_gf_tables.md R96). -/
def affineInverse (y : Byte) : Byte := y.rotateLeft 1 ^^^ y.rotateLeft 3 ^^^ y.rotateLeft 6 ^^^ 0x05

@[simp] theorem affineInverse_affine (b : Byte) : affineInverse (affine b) = b := by
  revert b
  decide +kernel

@[simp] theorem affine_affineInverse (y : Byte) : affine (affineInverse y) = y := by
  revert y
  decide +kernel

/-- SBOX holds the affine images of the inverses (41_gf_tables.md R95). -/
theorem sbox_eq (x : Byte) : sbox x = affine (fieldInverse x) := by
  have entries : ∀ x, sbox x = affine (ginv x) := by decide +kernel
  rw [entries, ginv_eq_fieldInverse]

/-- INVSBOX holds the inverses of the affine preimages (41_gf_tables.md R96). -/
theorem invSbox_eq (y : Byte) : invSbox y = fieldInverse (affineInverse y) := by
  have entries : ∀ y, invSbox y = ginv (affineInverse y) := by decide +kernel
  rw [entries, ginv_eq_fieldInverse]

/-- INVSBOX undoes SBOX (41_gf_tables.md R96). -/
@[simp] theorem invSbox_sbox (x : Byte) : invSbox (sbox x) = x := by
  rw [sbox_eq, invSbox_eq, affineInverse_affine, fieldInverse_fieldInverse]

/-- SBOX undoes INVSBOX (41_gf_tables.md R96). -/
@[simp] theorem sbox_invSbox (y : Byte) : sbox (invSbox y) = y := by
  rw [sbox_eq, invSbox_eq, fieldInverse_fieldInverse, affine_affineInverse]

/-- The two bytes that the S-box swaps (41_gf_tables.md R96). -/
theorem sbox_sbox_eq_self_iff (x : Byte) : sbox (sbox x) = x ↔ x = 0x73 ∨ x = 0x8F := by
  revert x
  decide +kernel

/-! ### The multiplication tables -/

/-- MUL_2 holds the doubles (41_gf_tables.md R97). -/
theorem romRead_mul2Rom (x : Byte) : romRead mul2Rom x = gmul x 0x02 := by
  revert x
  decide +kernel

/-- MUL_3 holds the products with 3 (41_gf_tables.md R97). -/
theorem romRead_mul3Rom (x : Byte) : romRead mul3Rom x = gmul x 0x03 := by
  revert x
  decide +kernel

/-- MUL_9 holds the products with 9 (41_gf_tables.md R97). -/
theorem romRead_mul9Rom (x : Byte) : romRead mul9Rom x = gmul x 0x09 := by
  revert x
  decide +kernel

/-- MUL_11 holds the products with 11 (41_gf_tables.md R97). -/
theorem romRead_mul11Rom (x : Byte) : romRead mul11Rom x = gmul x 0x0B := by
  revert x
  decide +kernel

/-- MUL_13 holds the products with 13 (41_gf_tables.md R97). -/
theorem romRead_mul13Rom (x : Byte) : romRead mul13Rom x = gmul x 0x0D := by
  revert x
  decide +kernel

/-- MUL_14 holds the products with 14 (41_gf_tables.md R97). -/
theorem romRead_mul14Rom (x : Byte) : romRead mul14Rom x = gmul x 0x0E := by
  revert x
  decide +kernel

/-- Each table constant has a ROM, and it holds the products with the constant (41_gf_tables.md R97, R103). -/
theorem mulRom_of_mem {m : Byte} (h : m ∈ [0x02, 0x03, 0x09, 0x0B, 0x0D, 0x0E]) :
    ∃ t, mulRom m = some t ∧ ∀ x, romRead t x = gmul x m := by
  simp only [List.mem_cons, List.not_mem_nil, or_false] at h
  rcases h with rfl | rfl | rfl | rfl | rfl | rfl
  · exact ⟨mul2Rom, rfl, romRead_mul2Rom⟩
  · exact ⟨mul3Rom, rfl, romRead_mul3Rom⟩
  · exact ⟨mul9Rom, rfl, romRead_mul9Rom⟩
  · exact ⟨mul11Rom, rfl, romRead_mul11Rom⟩
  · exact ⟨mul13Rom, rfl, romRead_mul13Rom⟩
  · exact ⟨mul14Rom, rfl, romRead_mul14Rom⟩

/-! ### The table commands -/

/-- The end of every table command: RESULT and the completion fields of a success, nothing else. -/
theorem tableResult_eq (b : Byte) (s : State) :
    tableResult b s = .next { s with result := b.setWidth 32, pending := none, done := true, errcode := 0 } := rfl

theorem exec_sbox (x : Byte) (s : State) : exec (.sbox x) s = tableResult (affine (fieldInverse x)) s := by
  rw [exec, execSbox, sbox_eq]

theorem exec_ginv (x : Byte) (s : State) : exec (.ginv x) s = tableResult (fieldInverse x) s := by
  rw [exec, execGinv, ginv_eq_fieldInverse]

theorem exec_mulc {m : Byte} (h : m ∈ [0x02, 0x03, 0x09, 0x0B, 0x0D, 0x0E]) (x : Byte) (s : State) :
    exec (.mulc x m) s = tableResult (gmul x m) s := by
  obtain ⟨t, ht, hread⟩ := mulRom_of_mem h
  simp only [exec, execMulc, ht, hread]

/-- Settles O8: the table's entry is the affine image of the inverse. -/
theorem sboxReadsTheAffineOfTheInverse : Obligations.SboxReadsTheAffineOfTheInverse := by
  unfold Obligations.SboxReadsTheAffineOfTheInverse
  exact ⟨fun s x => by rw [exec_sbox, tableResult_eq], rfl⟩

/-- Settles O9: the two tables undo each other, so the entry at y is the only preimage of y. -/
theorem invsboxIsThePositionalInverse : Obligations.InvsboxIsThePositionalInverse := by
  unfold Obligations.InvsboxIsThePositionalInverse
  refine ⟨fun s y => ⟨invSbox y, tableResult_eq _ s, ?_, fun x' hx' => ?_, invSbox_eq y⟩, fun x => ?_⟩
  · rw [← sbox_eq, sbox_invSbox]
  · rw [← hx', ← sbox_eq, invSbox_sbox]
  · rw [← sbox_eq, ← sbox_eq, sbox_sbox_eq_self_iff]

/-- Settles O10: the table's entry is an inverse, and there is no other. -/
theorem ginvReadsTheUniqueInverse : Obligations.GinvReadsTheUniqueInverse := by
  unfold Obligations.GinvReadsTheUniqueInverse
  refine fun s x => ⟨fieldInverse x, ?_, fun h => ?_, fun h => ?_, rfl⟩
  · rw [exec_ginv, tableResult_eq]
  · rw [h, fieldInverse_zero]
  · exact ⟨gmul_fieldInverse h, fun z hz => eq_of_gmul_eq_one (gmul_fieldInverse h) hz⟩

/-- Settles O11: each table constant's ROM holds the products. -/
theorem mulcReadsTheFieldProduct : Obligations.MulcReadsTheFieldProduct := by
  unfold Obligations.MulcReadsTheFieldProduct
  intro s x m hm
  rw [exec_mulc hm, tableResult_eq]

/-- Settles O13: multiplication is additive in its first operand, and so is the extension to a word. -/
theorem multiplyTablesAreLinear : Obligations.MultiplyTablesAreLinear := by
  unfold Obligations.MultiplyTablesAreLinear
  intro s a b m hm
  refine ⟨_, _, _, exec_mulc hm a s, exec_mulc hm b s, exec_mulc hm (a ^^^ b) s, ?_⟩
  change (gmul (a ^^^ b) m).setWidth 32 = (gmul a m).setWidth 32 ^^^ (gmul b m).setWidth 32
  rw [xor_gmul, BitVec.setWidth_xor]

end Sys2Proof.Machine
end

section
/-! The key schedule: what changes it, and the words it holds (42_key_schedule.md R120 to R123, R127). -/

namespace Sys2Proof.Machine

/-! ### What changes the schedule -/

/-- Settles O39: of all a step can do, a completed EXPAND and the reset event alone write RK, NK, NR and KSV. -/
theorem onlyExpandOrResetChangesTheSchedule : Obligations.OnlyExpandOrResetChangesTheSchedule := by
  unfold Obligations.OnlyExpandOrResetChangesTheSchedule
  intro s t h
  rcases step_next_cases h with ⟨v, hd, hc⟩ | ⟨rest, hd, -⟩ | ⟨off, v, rest, r, d, -, -, rfl⟩ |
    ⟨-, _, _, _, _, rfl⟩
  · rcases completeCommand_next_cases hc with ⟨e, rfl⟩ | ⟨_, -, -, _, rfl⟩ | ⟨_, rfl⟩ | ⟨nk, nr, hv, hk, rfl⟩
    · exact .inl ⟨rfl, rfl, rfl, rfl⟩
    · exact .inl ⟨rfl, rfl, rfl, rfl⟩
    · exact .inl ⟨rfl, rfl, rfl, rfl⟩
    · exact .inr (.inl ⟨v, nk, nr, hd, hv, (supportedKey_iff nk nr).mp hk, rfl⟩)
  · exact .inr (.inr ⟨rest, hd⟩)
  · obtain ⟨hrk, hnk, hnr, hksv, -, -⟩ := writeReg_schedule_result r v ((s.setDelay d).setScript rest)
    exact .inl ⟨hrk, hnk, hnr, hksv⟩
  · exact .inl ⟨rfl, rfl, rfl, rfl⟩

/-! ### The word operations (42_key_schedule.md R121, R122) -/

/-- A rotation by 8 bits moves each byte one position on, the first to the last. -/
@[simp] theorem byteAt_rotateLeft_eight (r : Fin 4) (w : Word) :
    byteAt r (w.rotateLeft 8) = byteAt (r + 1) w := by
  have next : (r + 1).val = if r.val = 3 then 0 else r.val + 1 := by revert r; decide
  ext i hi
  simp only [byteAt, BitVec.getElem_extractLsb', BitVec.getLsbD_rotateLeft, Bool.cond_decide, next]
  split
  case isTrue wraps =>
    rw [if_pos (by omega)]
    congr 1
    omega
  case isFalse stays =>
    rw [if_neg (by omega), decide_eq_true (by omega), Bool.true_and]
    congr 1
    omega

theorem rotWord_eq_rotateLeft (w : Word) : rotWord w = w.rotateLeft 8 := by
  refine word_ext_bytes fun r => ?_
  rw [byteAt_rotateLeft_eight, rotWord]
  fin_cases r <;> simp

/-- SubWord in field arithmetic (41_gf_tables.md R95). -/
theorem subWord_eq (w : Word) : subWord w = mapBytes (fun x => affine (fieldInverse x)) w := by
  simp only [subWord, mapBytes, sbox_eq]

/-- A round constant stands in bits 31:24 of its word. -/
theorem rconWord_eq (rc : Byte) : rconWord rc = rc.setWidth 32 <<< 24 := by
  revert rc
  decide +kernel

/-- The round constant that is next when the words below i are made: 1, doubled once for each positive multiple of nk
below i (42_key_schedule.md R122). -/
def roundConstant (nk i : Nat) : Byte := xtime^[(i - 1) / nk] 0x01

/-- The round constant doubles at the multiples of nk, as in the loop. -/
theorem roundConstant_succ (nk : Nat) {i : Nat} (hi : 0 < i) :
    roundConstant nk (i + 1) = if i % nk = 0 then xtime (roundConstant nk i) else roundConstant nk i := by
  obtain ⟨k, rfl⟩ := Nat.exists_eq_add_one_of_ne_zero hi.ne'
  simp only [roundConstant, Nat.add_sub_cancel, Nat.succ_div, Nat.dvd_iff_mod_eq_zero]
  split
  · rw [Function.iterate_succ_apply']
  · rfl

/-- The round constant of the j-th multiple of nk is 1 doubled j - 1 times. -/
theorem roundConstant_of_multiple {nk i : Nat} (hi : 0 < i) (h : i % nk = 0) :
    roundConstant nk i = xtime^[i / nk - 1] 0x01 := by
  obtain ⟨j, rfl⟩ := Nat.dvd_of_mod_eq_zero h
  rw [roundConstant, Nat.mul_sub_div 0 nk j hi, Nat.zero_div,
    Nat.mul_div_cancel_left j (Nat.pos_of_mul_pos_right hi)]

/-- The first round constant is 1. -/
theorem roundConstant_first {nk : Nat} (hnk : 0 < nk) : roundConstant nk nk = 0x01 := by
  rw [roundConstant, Nat.div_eq_of_lt (by omega), Function.iterate_zero_apply]

/-! ### The words of the schedule (42_key_schedule.md R120, R123) -/

/-- The loop keeps the words made so far. -/
theorem expandLoop_getElem? (nk n : Nat) {w : List Word} (rc : Byte) {i : Nat} (hi : i < w.length) :
    (expandLoop nk n w rc)[i]? = w[i]? := by
  induction n generalizing w rc with
  | zero => rfl
  | succ n ih =>
    rw [expandLoop, ih _ (by rw [List.length_append]; omega), List.getElem?_append_left hi]

theorem expandLoop_getD (nk n : Nat) {w : List Word} (rc : Byte) {i : Nat} (hi : i < w.length) :
    (expandLoop nk n w rc).getD i 0 = w.getD i 0 := by
  simp only [List.getD_eq_getElem?_getD, expandLoop_getElem? nk n rc hi]

/-- Every word the loop makes is made from the word before it and the one nk before it. -/
theorem expandLoop_recurrence {nk : Nat} (hnk : 0 < nk) (n : Nat) {w : List Word} (hw : nk ≤ w.length) {i : Nat}
    (hi : w.length ≤ i) (hn : i < w.length + n) :
    let u := expandLoop nk n w (roundConstant nk w.length)
    u.getD i 0 = expandTerm nk i (roundConstant nk i) (u.getD (i - 1) 0) ^^^ u.getD (i - nk) 0 := by
  induction n generalizing w with
  | zero => omega
  | succ n ih =>
    simp only [expandLoop]
    rw [← roundConstant_succ nk (by omega)]
    generalize hx : expandTerm nk w.length (roundConstant nk w.length) (w.getD (w.length - 1) 0) ^^^
      w.getD (w.length - nk) 0 = x
    have hlen : (w ++ [x]).length = w.length + 1 := List.length_append
    rcases hi.eq_or_lt with rfl | later
    · have old : ∀ k, k < w.length →
          (expandLoop nk n (w ++ [x]) (roundConstant nk (w.length + 1))).getD k 0 = w.getD k 0 := fun k hk => by
        rw [expandLoop_getD _ _ _ (by omega), List.getD_append _ _ _ _ hk]
      have new : (expandLoop nk n (w ++ [x]) (roundConstant nk (w.length + 1))).getD w.length 0 = x := by
        rw [expandLoop_getD _ _ _ (by omega), List.getD_append_right _ _ _ _ le_rfl, Nat.sub_self,
          List.getD_cons_zero]
      rw [new, old (w.length - 1) (by omega), old (w.length - nk) (by omega), hx]
    · rw [← hlen]
      exact ih (by omega) (by omega) (by omega)

/-- The bounds of a supported pair: the key words lie in KEY, and the schedule has them and fits the RAM. -/
theorem supportedKey_bounds {nk nr : Nat} (hk : supportedKey nk nr = true) :
    0 < nk ∧ nk ≤ 8 ∧ nk ≤ 4 * (nr + 1) ∧ 4 * (nr + 1) ≤ 60 := by
  simp only [supportedKey_iff, List.mem_cons, Prod.mk.injEq, List.not_mem_nil, or_false] at hk
  omega

/-- Settles O14: the recurrence of the loop, with the word operations in field arithmetic. -/
theorem scheduleFollowsTheRecurrence : Obligations.ScheduleFollowsTheRecurrence := by
  unfold Obligations.ScheduleFollowsTheRecurrence
  intro nk nr key h w sub
  have hk := (supportedKey_iff nk nr).mpr h
  obtain ⟨hpos, hkey, -, -⟩ := supportedKey_bounds hk
  have hlen : (key.toList.take nk).length = nk := by simp [hkey]
  refine ⟨expandKey_length hk key, fun i hi => ?_, fun i hi hn => ?_⟩
  · simp only [w, expandKey]
    rw [expandLoop_getElem? _ _ _ (by omega), List.getElem?_take_of_lt hi, Vector.getElem?_toList]
  · have hrec := expandLoop_recurrence hpos (4 * (nr + 1) - nk) hlen.ge (i := i) (by omega) (by omega)
    rw [hlen, roundConstant_first hpos, ← expandKey] at hrec
    rw [hrec, BitVec.xor_comm, expandTerm]
    congr 1
    split
    case isTrue multiple =>
      rw [subWord_eq, rotWord_eq_rotateLeft, rconWord_eq, roundConstant_of_multiple (by omega) multiple]
    case isFalse => rw [subWord_eq]

end Sys2Proof.Machine
end

section
/-! ENCRYPT from a schedule just written, and the published vector (42_key_schedule.md R124, R125, 43_forward_cipher.md
R144, R149). -/

namespace Sys2Proof.Machine

/-! ### The Round Keys of a list of words -/

/-- Round Key j of a list of schedule words (42_key_schedule.md R124). -/
def scheduleRoundKey (ws : List Word) (j : Nat) : Block :=
  ⟨ws.getD (4 * j) 0, ws.getD (4 * j + 1) 0, ws.getD (4 * j + 2) 0, ws.getD (4 * j + 3) 0⟩

/-- A word of a schedule just written is read back from RK. -/
theorem rkWord_setSchedule (nk nr : Nat) {ws : List Word} (s : State) {i : Nat} (hi : i < ws.length) (hfit : i < 60) :
    (s.setSchedule nk nr ws).rkWord i = ws.getD i 0 := by
  rw [State.rkWord_eq _ hfit, State.setSchedule_rk, overwriteRk_getElem _ _ _ hfit, List.getD_eq_getElem _ _ hi,
    List.getD_eq_getElem _ _ hi]

/-- The Round Keys of a schedule just written are those of its words. -/
theorem roundKey_setSchedule (nk nr : Nat) {ws : List Word} (s : State) {j : Nat} (hj : 4 * j + 3 < ws.length)
    (hfit : 4 * j + 3 < 60) : (s.setSchedule nk nr ws).roundKey j = scheduleRoundKey ws j := by
  rw [State.roundKey, scheduleRoundKey, rkWord_setSchedule nk nr s (by omega) (by omega),
    rkWord_setSchedule nk nr s (by omega) (by omega), rkWord_setSchedule nk nr s (by omega) (by omega),
    rkWord_setSchedule nk nr s hj hfit]

/-- The first n rounds read the Round Keys 1 to n alone. -/
theorem forwardRounds_congr {rk rk' : Nat → Block} {n : Nat} (h : ∀ j ≤ n, rk j = rk' j) (b : Block) :
    forwardRounds rk n b = forwardRounds rk' n b := by
  induction n with
  | zero => rfl
  | succ n ih => rw [forwardRounds, forwardRounds, h (n + 1) le_rfl, ih fun j hj => h j (by omega)]

/-- The cipher reads the Round Keys 0 to nr alone. -/
theorem cipher_congr {rk rk' : Nat → Block} {nr : Nat} (h : ∀ j ≤ nr, rk j = rk' j) (b : Block) :
    cipher rk nr b = cipher rk' nr b := by
  rw [cipher, cipher, h nr le_rfl, h 0 (Nat.zero_le _), forwardRounds_congr fun j hj => h j (by omega)]

/-! ### EXPAND and ENCRYPT -/

/-- EXPAND of a supported pair writes the schedule of KEY. -/
theorem exec_expand {nk nr : Nat} (hk : supportedKey nk nr = true) (s : State) :
    exec (.expand nk nr) s = .next (s.setSchedule nk nr (expandKey nk nr s.key)).completed := by
  rw [exec, execExpand, if_pos hk, succeed_eq]

/-- ENCRYPT with a schedule in the RAM runs the cipher. -/
theorem exec_encrypt {s : State} (hksv : s.ksv = true) (hfits : s.scheduleFits = true) :
    exec .encrypt s = .next (s.setState (cipher s.roundKey s.nr.toNat s.state)).completed := by
  rw [exec, execEncrypt, withSchedule_schedule hksv hfits, succeed_eq]

/-- ENCRYPT of a block after EXPAND of a supported pair is the cipher with the Round Keys of KEY's expansion, whatever
RK held before. -/
theorem exec_encrypt_of_expanded {nk nr : Nat} (hk : supportedKey nk nr = true) (s : State) (b : Block) :
    ∃ u, exec .encrypt ((s.setSchedule nk nr (expandKey nk nr s.key)).completed.setState b) = .next u ∧
      u.state = cipher (scheduleRoundKey (expandKey nk nr s.key)) nr b := by
  obtain ⟨-, -, -, hwords⟩ := supportedKey_bounds hk
  have hlen := expandKey_length hk s.key
  have hnr := (supportedKey_ofNat hk).2
  refine ⟨_, exec_encrypt rfl ?_, ?_⟩
  · simp [State.scheduleWords, hnr, hwords]
  · simp only [State.completed_state, State.setState_state, State.setState_nr, State.completed_nr,
      State.setSchedule_nr, hnr]
    exact cipher_congr (fun j hj => roundKey_setSchedule nk nr s (by omega) (by omega)) b

/-! ### The published vector -/

/-- The key 000102..0f (95_test_vectors.md V1). -/
def publishedKey : List Word := [0x00010203, 0x04050607, 0x08090A0B, 0x0C0D0E0F]

/-- The block 001122..ff (95_test_vectors.md V1). -/
def publishedPlaintext : Block := ⟨0x00112233, 0x44556677, 0x8899AABB, 0xCCDDEEFF⟩

/-- The schedule of the published key. -/
def publishedSchedule : List Word := expandLoop 4 40 publishedKey 0x01

/-- The expansion of an AES-128 key reads KEY0..3 alone (42_key_schedule.md R125). -/
theorem expandKey_eq_publishedSchedule {key : Vector Word 8} (h0 : key[0] = 0x00010203) (h1 : key[1] = 0x04050607)
    (h2 : key[2] = 0x08090A0B) (h3 : key[3] = 0x0C0D0E0F) : expandKey 4 10 key = publishedSchedule := by
  have words : key.toList.take 4 = publishedKey := by
    refine List.ext_getElem (by simp [publishedKey]) fun i hi _ => ?_
    have hlt : i < 4 := by simp at hi; omega
    interval_cases i <;> simpa [publishedKey]
  rw [expandKey, words, publishedSchedule]

/-- The cipher of the published block under the published key (95_test_vectors.md V1). -/
theorem cipher_published : cipher (scheduleRoundKey publishedSchedule) 10 publishedPlaintext =
    ⟨0x69C4E0D8, 0x6A7B0430, 0xD8CDB780, 0x70B4C55A⟩ := by
  decide +kernel

/-- Settles O30: RK then holds the schedule of the published key, and ENCRYPT reads no other word of RK. -/
theorem publishedVectorEncrypts : Obligations.PublishedVectorEncrypts := by
  unfold Obligations.PublishedVectorEncrypts
  intro s h0 h1 h2 h3
  obtain ⟨u, hu, hstate⟩ := exec_encrypt_of_expanded (nk := 4) (nr := 10) rfl s publishedPlaintext
  refine ⟨_, u, exec_expand rfl s, hu, ?_⟩
  rw [hstate, expandKey_eq_publishedSchedule h0 h1 h2 h3, cipher_published]

end Sys2Proof.Machine
end

section
/-! The forward pipeline: what each step command does to the bytes of STATE, the frame of the state commands, and
ENCRYPT as its step commands (43_forward_cipher.md R140 to R149). -/

namespace Sys2Proof.Machine

/-! ### The frame of the state commands -/

/-- The commands for STATE (43_forward_cipher.md R145 to R149, 44_inverse_cipher.md R164 to R167). -/
theorem target_eq_state_iff (i : Instr) :
    target i = .state ↔ i ∈ [.subbytes, .shiftrows, .mixcolumns, .encrypt, .invsubbytes, .invshiftrows,
      .invmixcolumns, .decrypt] ∨ ∃ r, i = .addrk r := by
  cases i <;> simp [target]

/-- Settles O33: such a command fails or writes STATE. -/
theorem stateCommandsFrame : Obligations.StateCommandsFrame := by
  unfold Obligations.StateCommandsFrame
  intro i s t hi h
  have hstate := (target_eq_state_iff i).mpr hi
  rcases exec_next_cases h with ⟨e, rfl⟩ | ⟨hresult, -⟩ | ⟨-, b, rfl⟩ | ⟨nk, nr, rfl, -⟩
  · exact ⟨rfl, fun _ => rfl, rfl, rfl, rfl, rfl, rfl, rfl, rfl⟩
  · rw [hstate] at hresult; cases hresult
  · exact ⟨rfl, fun _ => rfl, rfl, rfl, rfl, rfl, rfl, rfl, rfl⟩
  · cases hstate

/-! ### SUBBYTES, SHIFTROWS and MIXCOLUMNS -/

/-- Settles O20: the S-box table holds the affine images of the inverses. -/
theorem subbytesSubstitutesEveryByte : Obligations.SubbytesSubstitutesEveryByte := by
  unfold Obligations.SubbytesSubstitutesEveryByte
  refine fun s => ⟨subBytes s.state, rfl, fun r c => ?_⟩
  rw [subBytes_byte, sbox_eq]

/-- Settles O21: addition of columns in `Fin 4` is addition modulo 4. -/
theorem shiftrowsRotatesRowsLeft : Obligations.ShiftrowsRotatesRowsLeft := by
  unfold Obligations.ShiftrowsRotatesRowsLeft
  exact fun s => ⟨shiftRows s.state, rfl, fun r c => shiftRows_byte s.state r c⟩

/-- Row r of the circulant matrix with first row ms, times the column a, over GF(2^8) (43_forward_cipher.md R142). -/
def circulantRow (ms : List Byte) (r : Fin 4) (a : Fin 4 → Byte) : Byte :=
  List.foldl (fun acc k => acc ^^^ gmul (a k) (ms.getD ((k.val + 4 - r.val) % 4) 0)) 0 [0, 1, 2, 3]

/-- Each row is the first one rotated right by its number. -/
theorem circulantRow_eq (m0 m1 m2 m3 : Byte) (r : Fin 4) (a : Fin 4 → Byte) :
    circulantRow [m0, m1, m2, m3] r a = byteAt r (packWord
      (gmul (a 0) m0 ^^^ gmul (a 1) m1 ^^^ gmul (a 2) m2 ^^^ gmul (a 3) m3)
      (gmul (a 0) m3 ^^^ gmul (a 1) m0 ^^^ gmul (a 2) m1 ^^^ gmul (a 3) m2)
      (gmul (a 0) m2 ^^^ gmul (a 1) m3 ^^^ gmul (a 2) m0 ^^^ gmul (a 3) m1)
      (gmul (a 0) m1 ^^^ gmul (a 1) m2 ^^^ gmul (a 2) m3 ^^^ gmul (a 3) m0)) := by
  match r with
  | 0 | 1 | 2 | 3 => simp [circulantRow]

/-- MixColumns multiplies each column by the circulant matrix of 2, 3, 1, 1. -/
theorem mixColumns_byte (b : Block) (r c : Fin 4) :
    (mixColumns b).byte r c = circulantRow [0x02, 0x03, 0x01, 0x01] r fun k => b.byte k c := by
  rw [Block.byte, mixColumns_column, circulantRow_eq, mixColumn]
  simp only [romRead_mul2Rom, romRead_mul3Rom, gmul_one]

/-- Settles O22: the tables MUL_2 and MUL_3 hold the products, and a product with 1 is the byte itself. -/
theorem mixcolumnsMultipliesByTheMatrix : Obligations.MixcolumnsMultipliesByTheMatrix := by
  unfold Obligations.MixcolumnsMultipliesByTheMatrix
  exact fun s => ⟨mixColumns s.state, rfl, mixColumns_byte s.state⟩

/-! ### ADDRK -/

/-- ADDRK r with a schedule in the RAM and r at most NR. -/
theorem exec_addrk {s : State} (hksv : s.ksv = true) (hfits : s.scheduleFits = true) {r : Nat}
    (hr : r ≤ s.nr.toNat) :
    exec (.addrk r) s = .next (s.setState (addRoundKey (s.roundKey r) s.state)).completed := by
  rw [exec, execAddrk, withSchedule_schedule hksv hfits, if_neg (Nat.not_lt_of_le hr), succeed_eq]

/-- ADDRK after other state commands, which leave the Round Keys as they were. -/
theorem exec_addrk_setState {s : State} (hksv : s.ksv = true) (hfits : s.scheduleFits = true) {r : Nat}
    (hr : r ≤ s.nr.toNat) (b : Block) :
    exec (.addrk r) (s.setState b).completed = .next (s.setState (addRoundKey (s.roundKey r) b)).completed :=
  exec_addrk (s := (s.setState b).completed) hksv hfits hr

/-- The columns of a Round Key are words of RK (42_key_schedule.md R124). -/
theorem rk_getElem?_eq_roundKey_column {s : State} {j : Nat} (hj : 4 * (j + 1) ≤ 60) (c : Fin 4) :
    s.rk[4 * j + c.val]? = some ((s.roundKey j).column c) := by
  have hlt : 4 * j + c.val < 60 := by omega
  have hcol : (s.roundKey j).column c = s.rkWord (4 * j + c.val) := by
    match c with
    | 0 | 1 | 2 | 3 => rfl
  rw [hcol, State.rkWord_eq s hlt, Vector.getElem?_eq_getElem hlt]

/-- Settles O23: soundness puts Round Key r in the RAM, and the xor with it is its own inverse. -/
theorem addrkXorsTheRoundKey : Obligations.AddrkXorsTheRoundKey := by
  unfold Obligations.AddrkXorsTheRoundKey
  intro s r hs hksv hr
  have hfits := State.scheduleFits_of_sound hs hksv
  have hwords : 4 * (s.nr.toNat + 1) ≤ 60 := (State.scheduleFits_eq_true s).mp hfits
  refine ⟨addRoundKey (s.roundKey r) s.state, exec_addrk hksv hfits hr, fun c => ?_, ?_⟩
  · rw [rk_getElem?_eq_roundKey_column (by omega), addRoundKey_column, Option.map_some]
  · refine (exec_addrk_setState hksv hfits hr (addRoundKey (s.roundKey r) s.state)).trans ?_
    rw [addRoundKey_addRoundKey]
    rfl

/-! ### ENCRYPT -/

/-- A command that answers hands its next state to the rest of the list. -/
theorem execAll_cons {i : Instr} {s t : State} (h : exec i s = .next t) (is : List Instr) :
    execAll (i :: is) s = execAll is t := by
  rw [execAll, h]

/-- A list of commands that answers hands its last state to the commands that follow. -/
theorem execAll_append {is : List Instr} {s t : State} (h : execAll is s = .next t) (js : List Instr) :
    execAll (is ++ js) s = execAll js t := by
  induction is generalizing s with
  | nil => rw [← Host.Outcome.next.inj h, List.nil_append]
  | cons i is ih =>
    rw [execAll] at h
    cases hi : exec i s <;> rw [hi] at h
    case next u => rw [List.cons_append, execAll_cons hi, ih h]
    case fault => cases h
    case refused => cases h

section
variable {s : State} (hksv : s.ksv = true) (hfits : s.scheduleFits = true)
include hksv hfits

/-- The step commands of a round perform the round (95_test_vectors.md P4). -/
theorem execAll_forwardRoundCommands {r : Nat} (hr : r ≤ s.nr.toNat) (b : Block) :
    execAll (forwardRoundCommands r) (s.setState b).completed =
      .next (s.setState (forwardRound (s.roundKey r) b)).completed :=
  execAll_cons (exec_addrk_setState hksv hfits hr (mixColumns (shiftRows (subBytes b)))) []

/-- The step commands of rounds 1 to n perform these rounds. -/
theorem execAll_forwardRounds {n : Nat} (hn : n ≤ s.nr.toNat) (b : Block) :
    execAll ((List.range n).flatMap fun r => forwardRoundCommands (r + 1)) (s.setState b).completed =
      .next (s.setState (forwardRounds s.roundKey n b)).completed := by
  induction n with
  | zero => rfl
  | succ n ih =>
    rw [List.range_succ, List.flatMap_append, execAll_append (ih (Nat.le_of_succ_le hn)), List.flatMap_singleton,
      execAll_forwardRoundCommands hksv hfits hn, forwardRounds]

/-- The step commands of ENCRYPT perform the cipher (43_forward_cipher.md R149). -/
theorem execAll_encryptCommands :
    execAll (encryptCommands s.nr.toNat) s =
      .next (s.setState (cipher s.roundKey s.nr.toNat s.state)).completed := by
  rw [encryptCommands, List.cons_append, execAll_cons (exec_addrk hksv hfits (Nat.zero_le _)),
    execAll_append (execAll_forwardRounds hksv hfits (Nat.sub_le _ _) _)]
  exact execAll_cons (exec_addrk_setState hksv hfits le_rfl (shiftRows (subBytes _))) []

end

/-- Settles O24: both run the cipher of R144 on STATE with the Round Keys in RK. -/
theorem encryptEqualsItsStepCommands : Obligations.EncryptEqualsItsStepCommands := by
  unfold Obligations.EncryptEqualsItsStepCommands
  intro s hs hksv
  have hfits := State.scheduleFits_of_sound hs hksv
  refine ⟨⟨cipher s.roundKey s.nr.toNat s.state, exec_encrypt hksv hfits⟩, ?_⟩
  rw [execAll_encryptCommands hksv hfits, exec_encrypt hksv hfits]

end Sys2Proof.Machine
end

section
/-! The inverse pipeline: what each step command does to the bytes of STATE, and that it undoes the forward step
(44_inverse_cipher.md R160 to R162). -/

namespace Sys2Proof.Machine

/-! ### INVSUBBYTES -/

@[simp] theorem invSubBytes_subBytes (b : Block) : invSubBytes (subBytes b) = b :=
  Block.ext_bytes fun r c => by rw [invSubBytes_byte, subBytes_byte, invSbox_sbox]

@[simp] theorem subBytes_invSubBytes (b : Block) : subBytes (invSubBytes b) = b :=
  Block.ext_bytes fun r c => by rw [subBytes_byte, invSubBytes_byte, sbox_invSbox]

/-- Settles O25: the inverse S-box table undoes the S-box table, which holds the affine images of the inverses. -/
theorem invsubbytesUndoesSubbytes : Obligations.InvsubbytesUndoesSubbytes := by
  unfold Obligations.InvsubbytesUndoesSubbytes
  refine ⟨fun s => ⟨invSubBytes s.state, rfl, fun r c => ?_⟩,
    fun b => ⟨invSubBytes_subBytes b, subBytes_invSubBytes b⟩⟩
  rw [invSubBytes_byte, ← sbox_eq, sbox_invSbox]

/-! ### INVSHIFTROWS -/

@[simp] theorem invShiftRows_shiftRows (b : Block) : invShiftRows (shiftRows b) = b :=
  Block.ext_bytes fun r c => by rw [invShiftRows_byte, shiftRows_byte, sub_add_cancel]

@[simp] theorem shiftRows_invShiftRows (b : Block) : shiftRows (invShiftRows b) = b :=
  Block.ext_bytes fun r c => by rw [shiftRows_byte, invShiftRows_byte, add_sub_cancel_right]

/-- Moving bytes commutes with a substitution of each byte. -/
theorem invShiftRows_subBytes (b : Block) : invShiftRows (subBytes b) = subBytes (invShiftRows b) :=
  Block.ext_bytes fun r c => by simp only [invShiftRows_byte, subBytes_byte]

theorem invShiftRows_invSubBytes (b : Block) : invShiftRows (invSubBytes b) = invSubBytes (invShiftRows b) :=
  Block.ext_bytes fun r c => by simp only [invShiftRows_byte, invSubBytes_byte]

/-- Subtraction of columns is subtraction modulo 4. -/
theorem column_sub_eq (r c : Fin 4) : c - r = Fin.ofNat 4 (c.val + 4 - r.val) := by
  revert r c
  decide

/-- Settles O26: the rotation by r columns to the right undoes the one to the left. -/
theorem invshiftrowsRotatesRowsRight : Obligations.InvshiftrowsRotatesRowsRight := by
  unfold Obligations.InvshiftrowsRotatesRowsRight
  refine ⟨fun s => ⟨invShiftRows s.state, rfl, fun r c => ?_⟩, fun b =>
    ⟨invShiftRows_shiftRows b, shiftRows_invShiftRows b, invShiftRows_subBytes b, invShiftRows_invSubBytes b⟩⟩
  rw [invShiftRows_byte, column_sub_eq]

/-! ### INVMIXCOLUMNS -/

/-- The product of two circulant matrices is the circulant matrix of the cyclic convolution of their first rows. -/
theorem circulantRow_circulantRow (m0 m1 m2 m3 n0 n1 n2 n3 : Byte) (r : Fin 4) (a : Fin 4 → Byte) :
    circulantRow [n0, n1, n2, n3] r (fun k => circulantRow [m0, m1, m2, m3] k a) = circulantRow
      [gmul m0 n0 ^^^ gmul m3 n1 ^^^ gmul m2 n2 ^^^ gmul m1 n3,
       gmul m1 n0 ^^^ gmul m0 n1 ^^^ gmul m3 n2 ^^^ gmul m2 n3,
       gmul m2 n0 ^^^ gmul m1 n1 ^^^ gmul m0 n2 ^^^ gmul m3 n3,
       gmul m3 n0 ^^^ gmul m2 n1 ^^^ gmul m1 n2 ^^^ gmul m0 n3] r a := by
  simp only [circulantRow_eq]
  match r with
  | 0 | 1 | 2 | 3 =>
    simp only [byteAt_zero_packWord, byteAt_one_packWord, byteAt_two_packWord, byteAt_three_packWord, xor_gmul,
      gmul_xor, gmul_assoc]
    ac_rfl

theorem gmul_zero (a : Byte) : gmul a 0 = 0 := by rw [gmul_comm, zero_gmul]

/-- The circulant matrix of 1, 0, 0, 0 is the unit matrix. -/
theorem circulantRow_unit (r : Fin 4) (a : Fin 4 → Byte) : circulantRow [1, 0, 0, 0] r a = a r := by
  simp only [circulantRow_eq, gmul_one, gmul_zero]
  match r with
  | 0 | 1 | 2 | 3 => simp

/-- InvMixColumns multiplies each column by the circulant matrix of 14, 11, 13, 9. -/
theorem invMixColumns_byte (b : Block) (r c : Fin 4) :
    (invMixColumns b).byte r c = circulantRow [0x0E, 0x0B, 0x0D, 0x09] r fun k => b.byte k c := by
  rw [Block.byte, invMixColumns_column, circulantRow_eq, invMixColumn]
  simp only [romRead_mul9Rom, romRead_mul11Rom, romRead_mul13Rom, romRead_mul14Rom]

/-- The two matrices are inverse to each other over GF(2^8) (44_inverse_cipher.md R162). -/
@[simp] theorem invMixColumns_mixColumns (b : Block) : invMixColumns (mixColumns b) = b :=
  Block.ext_bytes fun r c => by
    simp only [invMixColumns_byte, mixColumns_byte, circulantRow_circulantRow]
    exact circulantRow_unit r fun k => b.byte k c

@[simp] theorem mixColumns_invMixColumns (b : Block) : mixColumns (invMixColumns b) = b :=
  Block.ext_bytes fun r c => by
    simp only [invMixColumns_byte, mixColumns_byte, circulantRow_circulantRow]
    exact circulantRow_unit r fun k => b.byte k c

/-- Settles O27: the tables hold the products, and the product of the two matrices is the unit matrix. -/
theorem invmixcolumnsMultipliesByTheInverseMatrix : Obligations.InvmixcolumnsMultipliesByTheInverseMatrix := by
  unfold Obligations.InvmixcolumnsMultipliesByTheInverseMatrix
  exact ⟨fun s => ⟨invMixColumns s.state, rfl, invMixColumns_byte s.state⟩, invMixColumns_mixColumns⟩

end Sys2Proof.Machine
end

section
/-! DECRYPT: it does what its step commands do, and it and ENCRYPT undo each other (44_inverse_cipher.md R163, R167,
R168). -/

namespace Sys2Proof.Machine

/-! ### DECRYPT as its step commands -/

/-- DECRYPT with a schedule in the RAM runs the inverse cipher. -/
theorem exec_decrypt {s : State} (hksv : s.ksv = true) (hfits : s.scheduleFits = true) :
    exec .decrypt s = .next (s.setState (invCipher s.roundKey s.nr.toNat s.state)).completed := by
  rw [exec, execDecrypt, withSchedule_schedule hksv hfits, succeed_eq]

section
variable {s : State} (hksv : s.ksv = true) (hfits : s.scheduleFits = true)
include hksv hfits

/-- The step commands of an inverse round perform the round (95_test_vectors.md P8). -/
theorem execAll_inverseRoundCommands {r : Nat} (hr : r ≤ s.nr.toNat) (b : Block) :
    execAll (inverseRoundCommands r) (s.setState b).completed =
      .next (s.setState (inverseRound (s.roundKey r) b)).completed :=
  execAll_cons (exec_addrk_setState hksv hfits hr (invSubBytes (invShiftRows b))) [.invmixcolumns]

/-- The step commands of rounds n down to 1 perform these rounds. -/
theorem execAll_inverseRounds {n : Nat} (hn : n ≤ s.nr.toNat) (b : Block) :
    execAll ((List.range n).reverse.flatMap fun r => inverseRoundCommands (r + 1)) (s.setState b).completed =
      .next (s.setState (inverseRounds s.roundKey n b)).completed := by
  induction n generalizing b with
  | zero => rfl
  | succ n ih =>
    rw [List.range_succ, List.reverse_concat, List.flatMap_cons,
      execAll_append (execAll_inverseRoundCommands hksv hfits hn b), ih (Nat.le_of_succ_le hn), inverseRounds]

/-- The step commands of DECRYPT perform the inverse cipher (44_inverse_cipher.md R163). -/
theorem execAll_decryptCommands :
    execAll (decryptCommands s.nr.toNat) s =
      .next (s.setState (invCipher s.roundKey s.nr.toNat s.state)).completed := by
  rw [decryptCommands, List.cons_append, execAll_cons (exec_addrk hksv hfits le_rfl),
    execAll_append (execAll_inverseRounds hksv hfits (Nat.sub_le _ _) _)]
  exact execAll_cons (exec_addrk_setState hksv hfits (Nat.zero_le _) (invSubBytes (invShiftRows _))) []

end

/-- Settles O28: both run the inverse cipher of R163 on STATE with the Round Keys in RK. -/
theorem decryptEqualsItsStepCommands : Obligations.DecryptEqualsItsStepCommands := by
  unfold Obligations.DecryptEqualsItsStepCommands
  intro s hs hksv
  have hfits := State.scheduleFits_of_sound hs hksv
  refine ⟨⟨invCipher s.roundKey s.nr.toNat s.state, exec_decrypt hksv hfits⟩, ?_⟩
  rw [execAll_decryptCommands hksv hfits, exec_decrypt hksv hfits]

/-! ### The two ciphers undo each other

The listed order of an inverse round starts with the inverse of ShiftRows and SubBytes, which belong to the forward
round after it, so the rounds undo each other up to these two steps. -/

/-- Inverse rounds n to 1 undo rounds 1 to n, seen after SubBytes and ShiftRows. -/
theorem inverseRounds_forwardRounds (rk : Nat → Block) (n : Nat) (b : Block) :
    inverseRounds rk n (shiftRows (subBytes (forwardRounds rk n b))) = shiftRows (subBytes b) := by
  induction n with
  | zero => rfl
  | succ n ih =>
    have round : ∀ k x, inverseRound k (shiftRows (subBytes (forwardRound k x))) = shiftRows (subBytes x) :=
      fun k x => by simp [inverseRound, forwardRound]
    rw [inverseRounds, forwardRounds, round, ih]

/-- Rounds 1 to n undo inverse rounds n to 1, seen before InvShiftRows and InvSubBytes. -/
theorem forwardRounds_inverseRounds (rk : Nat → Block) (n : Nat) (b : Block) :
    forwardRounds rk n (invSubBytes (invShiftRows (inverseRounds rk n b))) = invSubBytes (invShiftRows b) := by
  induction n generalizing b with
  | zero => rfl
  | succ n ih =>
    have round : ∀ k x, forwardRound k (invSubBytes (invShiftRows (inverseRound k x))) =
        invSubBytes (invShiftRows x) := fun k x => by simp [inverseRound, forwardRound]
    rw [inverseRounds, forwardRounds, ih, round]

/-- InvCipher undoes Cipher with the same Round Keys (44_inverse_cipher.md R168). -/
theorem invCipher_cipher (rk : Nat → Block) (nr : Nat) (b : Block) : invCipher rk nr (cipher rk nr b) = b := by
  rw [invCipher, cipher, addRoundKey_addRoundKey, inverseRounds_forwardRounds, invShiftRows_shiftRows,
    invSubBytes_subBytes, addRoundKey_addRoundKey]

/-- Cipher undoes InvCipher with the same Round Keys (44_inverse_cipher.md R168). -/
theorem cipher_invCipher (rk : Nat → Block) (nr : Nat) (b : Block) : cipher rk nr (invCipher rk nr b) = b := by
  rw [invCipher, cipher, addRoundKey_addRoundKey, forwardRounds_inverseRounds, subBytes_invSubBytes,
    shiftRows_invShiftRows, addRoundKey_addRoundKey]

/-- Settles O29: neither command changes the schedule, and the two ciphers undo each other. -/
theorem decryptUndoesEncrypt : Obligations.DecryptUndoesEncrypt := by
  unfold Obligations.DecryptUndoesEncrypt
  intro s hs hksv
  have hfits := State.scheduleFits_of_sound hs hksv
  have encrypted : ∀ b, exec .encrypt (s.setState b).completed =
      .next (s.setState (cipher s.roundKey s.nr.toNat b)).completed := fun _ => exec_encrypt hksv hfits
  have decrypted : ∀ b, exec .decrypt (s.setState b).completed =
      .next (s.setState (invCipher s.roundKey s.nr.toNat b)).completed := fun _ => exec_decrypt hksv hfits
  refine ⟨⟨_, exec_encrypt hksv hfits, ?_⟩, ⟨_, exec_decrypt hksv hfits, ?_⟩⟩
  · rw [decrypted, invCipher_cipher]
    rfl
  · rw [encrypted, cipher_invCipher]
    rfl

end Sys2Proof.Machine
end

section
/-! Commands that complete with an error: a reserved field that is not zero, a constant without a table, an unsupported
key pair, no schedule, an index beyond the schedule (60_exceptions.md R181 to R188). Each command answers
`State.failed`, which writes the completion fields alone. -/

namespace Sys2Proof.Machine

/-! ### Reserved fields -/

/-- The opcode values 30_encoding.md R74 assigns. -/
abbrev AssignedOpcode (o : Nat) : Prop :=
  o ∈ [0x01, 0x02, 0x03, 0x04, 0x10, 0x11, 0x20, 0x21, 0x22, 0x23, 0x28, 0x29, 0x2A, 0x30, 0x31]

/-- The opcode values of format N, whose A byte is reserved (30_encoding.md R74, R76). -/
abbrev OpcodeReservesA (o : Nat) : Prop := o ∈ [0x20, 0x21, 0x22, 0x28, 0x29, 0x2A, 0x30, 0x31]

/-- Among the assigned opcode values, those whose B byte is reserved: all but MULC and EXPAND (30_encoding.md R74,
R76). -/
abbrev OpcodeReservesB (o : Nat) : Prop := o ≠ 0x04 ∧ o ≠ 0x10

/-- An assigned opcode selects a row of the map. -/
theorem mnemonicAt_of_assigned {o : Byte} (h : AssignedOpcode o.toNat) : ∃ m, mnemonicAt o = some m := by
  have rows : o.toNat ∈ opcodeMap.map fun p => p.1.toNat := h
  obtain ⟨p, hp, hopc⟩ := List.mem_map.mp rows
  refine Option.ne_none_iff_exists'.mp fun hnone => ?_
  exact (mnemonicAt_eq_none_iff o).mp hnone p hp (BitVec.eq_of_toNat_eq hopc.symm)

/-- The rows that reserve A, by opcode. -/
theorem reservesA_iff_of_row {o : Byte} {m : Mnemonic} (row : (o, m) ∈ opcodeMap) :
    reservesA (formatOf m) = true ↔ OpcodeReservesA o.toNat := by
  have rows : ∀ p ∈ opcodeMap, reservesA (formatOf p.2) = true ↔ OpcodeReservesA p.1.toNat := by decide
  exact rows (o, m) row

/-- The rows that reserve B, by opcode. -/
theorem reservesB_iff_of_row {o : Byte} {m : Mnemonic} (row : (o, m) ∈ opcodeMap) :
    reservesB (formatOf m) = true ↔ OpcodeReservesB o.toNat := by
  have rows : ∀ p ∈ opcodeMap, reservesB (formatOf p.2) = true ↔ OpcodeReservesB p.1.toNat := by decide
  exact rows (o, m) row

/-- A reserved field is not 0 (30_encoding.md R76). -/
theorem reservedNonzero_eq_true_iff (f : Format) (v : Word) :
    reservedNonzero f v = true ↔
      fieldZ v ≠ 0 ∨ (fieldA v ≠ 0 ∧ reservesA f = true) ∨ (fieldB v ≠ 0 ∧ reservesB f = true) := by
  simp only [reservedNonzero, Bool.or_eq_true, Bool.and_eq_true, bne_iff_ne, or_assoc]

/-- Settles O7: the opcode selects a row whose format reserves the field, so the word does not decode. -/
theorem nonzeroReservedFieldCompletesWithError2 : Obligations.NonzeroReservedFieldCompletesWithError2 := by
  unfold Obligations.NonzeroReservedFieldCompletesWithError2
  intro s v hp hd hword
  simp only [← fieldOpc_toNat, ← fieldA_toNat, ← fieldB_toNat, ← fieldZ_toNat] at hword
  obtain ⟨hassigned, hfield⟩ := hword
  obtain ⟨m, hm⟩ := mnemonicAt_of_assigned hassigned
  have row := mem_opcodeMap_of_mnemonicAt hm
  have hreserved : reservedNonzero (formatOf m) v = true := by
    rw [reservedNonzero_eq_true_iff, reservesA_iff_of_row row, reservesB_iff_of_row row]
    simp only [BitVec.toNat_ne]
    exact hfield
  have hdecode : decode v = .error .reservedField := (decode_eq_error_iff v _).mpr (.inr ⟨m, hm, hreserved, rfl⟩)
  rw [step_of_due hp hd, completeCommand_error hdecode]
  rfl

/-! ### An index beyond the schedule -/

/-- ADDRK r with a schedule in the RAM and r above NR. -/
theorem exec_addrk_beyond {s : State} (hksv : s.ksv = true) (hfits : s.scheduleFits = true) {r : Nat}
    (hr : r > s.nr.toNat) : exec (.addrk r) s = .next (s.failed .range) := by
  rw [exec, execAddrk, withSchedule_schedule hksv hfits, if_pos hr, raiseError_eq]

/-- RKREAD i with a schedule in the RAM and i not below its length. -/
theorem exec_rkread_beyond {s : State} (hksv : s.ksv = true) (hfits : s.scheduleFits = true) {i : Nat}
    (hi : i ≥ s.scheduleWords) : exec (.rkread i) s = .next (s.failed .range) := by
  rw [exec, execRkread, withSchedule_schedule hksv hfits, if_pos hi, raiseError_eq]

/-- Settles O18: soundness puts the schedule in the RAM, so the range check is reached. -/
theorem indexBeyondTheScheduleIsRangeError : Obligations.IndexBeyondTheScheduleIsRangeError := by
  unfold Obligations.IndexBeyondTheScheduleIsRangeError
  exact ⟨fun s r hs hksv hr => exec_addrk_beyond hksv (State.scheduleFits_of_sound hs hksv) hr,
    fun s i hs hksv hi => exec_rkread_beyond hksv (State.scheduleFits_of_sound hs hksv) hi⟩

/-! ### A constant without a table -/

/-- A constant outside the six has no ROM (41_gf_tables.md R103). -/
theorem mulRom_of_not_mem {m : Byte} (h : m ∉ [0x02, 0x03, 0x09, 0x0B, 0x0D, 0x0E]) : mulRom m = none := by
  simp only [List.mem_cons, List.not_mem_nil, or_false, not_or] at h
  obtain ⟨h2, h3, h9, h11, h13, h14⟩ := h
  rw [mulRom, if_neg h2, if_neg h3, if_neg h9, if_neg h11, if_neg h13, if_neg h14]

/-- Settles O12: the constant has no ROM. -/
theorem mulcWithoutATableIsBadConstant : Obligations.MulcWithoutATableIsBadConstant := by
  unfold Obligations.MulcWithoutATableIsBadConstant
  intro s x m hm
  simp only [exec, execMulc, mulRom_of_not_mem hm]
  exact raiseError_eq .badConstant s

/-! ### An unsupported key pair -/

/-- EXPAND of an unsupported pair writes no schedule. -/
theorem exec_expand_unsupported {nk nr : Nat} (hk : supportedKey nk nr = false) (s : State) :
    exec (.expand nk nr) s = .next (s.failed .invalidParam) := by
  rw [exec, execExpand, if_neg (Bool.eq_false_iff.mp hk), raiseError_eq]

/-- Settles O16: the three pairs are the supported ones. -/
theorem unsupportedExpandIsInvalidParameter : Obligations.UnsupportedExpandIsInvalidParameter := by
  unfold Obligations.UnsupportedExpandIsInvalidParameter
  exact fun s nk nr => ⟨fun h => ⟨_, exec_expand ((supportedKey_iff nk nr).mpr h) s, rfl⟩,
    fun h => exec_expand_unsupported ((supportedKey_eq_false_iff nk nr).mpr h) s⟩

/-! ### No schedule -/

/-- Settles O19: the four commands check for a schedule first, whatever they would do with one. -/
theorem commandsWithoutAScheduleRecordError5 : Obligations.CommandsWithoutAScheduleRecordError5 := by
  unfold Obligations.CommandsWithoutAScheduleRecordError5
  intro s hksv
  exact ⟨fun _ => withSchedule_no_schedule hksv _, fun _ => withSchedule_no_schedule hksv _,
    withSchedule_no_schedule hksv _, withSchedule_no_schedule hksv _⟩

end Sys2Proof.Machine
end

section
/-! The reset event (70_reset_and_hazards.md R200, R201, R204). -/

namespace Sys2Proof.Machine

/-- Every field of STATUS is 0 after a reset, whichever words it draws (70_reset_and_hazards.md R201). -/
@[simp] theorem State.afterReset_statusWord (n : Nat) : (State.afterReset n).statusWord = 0 := by
  simp only [State.statusWord, State.busy, State.afterReset]
  decide

@[simp] theorem State.pinReset_statusWord (s : State) : s.pinReset.statusWord = 0 :=
  State.afterReset_statusWord s.draws

/-- irq is low after a reset, as IE and DONE are. -/
@[simp] theorem State.afterReset_irq (n : Nat) : (State.afterReset n).irq = false := rfl

@[simp] theorem State.pinReset_irq (s : State) : s.pinReset.irq = false := rfl

/-- A host that asserts reset at its turn leaves the reset state: the delay of a pending command is lost with it. -/
theorem State.hostDoes.step_reset {s : State} {rest : List HostAct} (h : s.hostDoes .reset rest) :
    step s = .next (s.setScript rest).pinReset := by
  obtain ⟨d, hstep⟩ := h.step_eq
  calc step s = hostAct .reset ((s.setDelay d).setScript rest) := hstep
    _ = .next ((s.setDelay d).setScript rest).pinReset := rfl
    _ = .next (s.setScript rest).pinReset := rfl

/-- Settles O55: the step is the reset event, which leaves each register its reset value and the script to the host. -/
theorem resetEventDiscardsThePendingCommand : Obligations.ResetEventDiscardsThePendingCommand := by
  unfold Obligations.ResetEventDiscardsThePendingCommand
  intro s rest h
  exact ⟨(s.setScript rest).pinReset, h.step_reset, by simp⟩

/-- Settles O57: the first reset is a reset like any other, so STATUS and irq are 0, and so are the fields it sets. -/
theorem resetValues : Obligations.ResetValues := by
  unfold Obligations.ResetValues
  exact ⟨rfl, State.afterReset_statusWord 0, rfl, rfl, rfl, State.afterReset_irq 0⟩

end Sys2Proof.Machine
end

section
/-! The words a reset draws for STATE, KEY and RK (70_reset_and_hazards.md R202). -/

namespace Sys2Proof.Machine

/-- STATE takes the first four draws, one for each column. -/
theorem State.afterReset_column (n : Nat) (c : Fin 4) :
    (State.afterReset n).state.column c = Config.freeWord (n + c.val) :=
  match c with
  | 0 | 1 | 2 | 3 => rfl

/-- KEY takes the eight draws after those of STATE. -/
theorem State.afterReset_key_getElem? (n : Nat) {i : Nat} (hi : i < 8) :
    (State.afterReset n).key[i]? = some (Config.freeWord (n + 4 + i)) := by
  rw [State.afterReset, Vector.getElem?_eq_getElem hi, Vector.getElem_ofFn]

/-- RK takes the sixty draws after those of KEY. -/
theorem State.afterReset_rk_getElem? (n : Nat) {i : Nat} (hi : i < 60) :
    (State.afterReset n).rk[i]? = some (Config.freeWord (n + 12 + i)) := by
  rw [State.afterReset, Vector.getElem?_eq_getElem hi, Vector.getElem_ofFn]

/-- Settles O56: the step is the reset event, whose draws begin at the first one not yet made. -/
theorem resetDrawsNewWords : Obligations.ResetDrawsNewWords := by
  unfold Obligations.ResetDrawsNewWords
  intro s rest h
  exact ⟨(s.setScript rest).pinReset, h.step_reset, rfl, rfl, State.afterReset_column s.draws,
    fun _ => State.afterReset_key_getElem? s.draws, fun _ => State.afterReset_rk_getElem? s.draws⟩

end Sys2Proof.Machine
end
